-- ==== Sys2Proof/Word.lean ====
section
/-! DEFINITION. The three widths of CKSUM-CORE's unsigned values (spec R13: u8, u16, u32). -/

namespace Sys2Proof

/-- u8: one byte of PBUF, an 8-bit header field (R13). -/
abbrev Byte := BitVec 8

/-- u16: a 16-bit header field, a checksum, one group of the checksum's stream (R13). -/
abbrev Half := BitVec 16

/-- u32: a register-space word, an argument register, a buffer address, a command word (R13). -/
abbrev Word := BitVec 32

end Sys2Proof
end

