-- ==== Sys2Proof/Config.lean ====
section
/-! DEFINITION. What one instance of CKSUM-CORE fixes: the constants the source gives (R9), the parameters of an
instance (R10 to R12, R38), and the values the spec leaves open, which are opaque: nothing can be proved of them. -/

namespace Sys2Proof

/-! ### Constants the source fixes (R9) -/

def Config.ipVihl : Byte := 0x45#8
def Config.ipTos : Byte := 0x00#8
def Config.ipFrag : Half := 0x0000#16
def Config.ipTtl : Byte := 64#8
def Config.ipHlen : Nat := 20
def Config.protoIcmp : Byte := 1#8
def Config.protoTcp : Byte := 6#8
def Config.protoUdp : Byte := 17#8
def Config.icmpTypeEchoRequest : Byte := 8#8
def Config.icmpCode : Byte := 0#8
def Config.icmpHlen : Nat := 8
def Config.udpHlen : Nat := 8
def Config.pshLen : Nat := 12
def Config.tcpHlen : Nat := 20
def Config.tcpMssKind : Byte := 2#8
def Config.tcpMssLen : Byte := 4#8
def Config.tcpMss : Half := 1460#16

/-! ### Bounds -/

/-- TCP_OPT_MAX (R12): the capacity of the TCP option store. -/
def Config.tcpOptMax : Nat := 40

/-- The largest length a u16 field holds; the bound of R153 and R196. -/
def Config.maxTotalLength : Nat := 0xFFFF

/-- The largest UDP payload, 65535 - 28 (R196, R197). -/
def Config.maxUdpPayload : Nat := 65507

/-! ### Parameters of an instance -/

/-- The parameters of one instance (R10, R11, R12): "parameters of the step relation", constant for the instance (R38). -/
structure Params where
  /-- LOCAL_ADDR, the "fixed local address" (R10, D21). -/
  localAddr : Word
  /-- IP_ID, the IPv4 identification constant (R10, D20). -/
  ipId : Half
  /-- ICMP_ID, the ICMP identifier constant (R10, D22). -/
  icmpId : Half
  /-- TCP_WINDOW, the window of built TCP headers (R10, D24). -/
  tcpWindow : Half
  /-- TCP_FLAG_SYN, "the SYN bit" (R11, D25). -/
  tcpFlagSyn : Byte
  /-- PBUF_SIZE, the bytes of the packet buffer (R12, D8). -/
  pbufSize : Nat
  /-- HAS_TCP: whether the TCP unit exists (R12, D23). -/
  hasTcp : Bool
  deriving DecidableEq, Repr

/-- The range the spec gives PBUF_SIZE: "natural, 1 to 2^32" (92_eei_decisions, named parameters; D8). -/
abbrev Params.valid (p : Params) : Prop := 1 ≤ p.pbufSize ∧ p.pbufSize ≤ 2 ^ 32

/-- LOCAL_ADDR of the machine that State.reset is (OPEN, D21): free. Log entry 4. -/
opaque Config.localAddr : Word

/-- ICMP_ID of the machine that State.reset is (OPEN, D22): free. Log entry 4. -/
opaque Config.icmpId : Half

/-- TCP_WINDOW of the machine that State.reset is (OPEN, D24): free. Log entry 4. -/
opaque Config.tcpWindow : Half

/-- The parameters of the machine that State.reset is: the open ones free, the others at the spec's defaults (R10 to R12).
Statements about every state hold for every other choice as well. -/
def Config.params : Params where
  localAddr := Config.localAddr
  ipId := 1#16
  icmpId := Config.icmpId
  tcpWindow := Config.tcpWindow
  tcpFlagSyn := 0x02#8
  pbufSize := 131072
  hasTcp := true

/-! ### Free values -/

/-- What a PBUF byte that nothing has written since the latest reset holds: "unspecified: any bytes" (R40, R292, K2). The
arguments are the number of resets so far and the address, so that such a byte reads the same until it is written (R59) and
another reset may leave another content. Log entry 5. -/
opaque Config.powerOnByte : Nat → Nat → Byte

/-- OLEN after an ENC.TCP of so many bytes that the 32-bit register cannot hold the count (R34, R222). Log entry 10. -/
opaque Config.olenUnstated : Nat → Word

end Sys2Proof
end

