-- ==== Sys2Proof/Syntax.lean ====
section
/-! DEFINITION. The command set of CKSUM-CORE (R74): one constructor per row of the opcode table, in its order. A command
carries no operand; operands are in the argument registers (R71, R76). -/

namespace Sys2Proof

/-- The 22 commands (R74). -/
inductive Instr where
  /-- NOP (R250). -/
  | nop
  /-- CK.CLR: clear the accumulator (R110). -/
  | ckClr
  /-- CK.ADD: absorb PBUF bytes into the accumulator (R111). -/
  | ckAdd
  /-- CK.GET: read out the checksum (R112). -/
  | ckGet
  /-- CK.SUM: one-shot checksum of a PBUF range (R113). -/
  | ckSum
  /-- ENC.IP (R150). -/
  | encIp
  /-- ENC.ICMP (R170). -/
  | encIcmp
  /-- ENC.UDP (R190). -/
  | encUdp
  /-- ENC.PSH (R192). -/
  | encPsh
  /-- ENC.TCP (R222). -/
  | encTcp
  /-- DEC.IP (R151). -/
  | decIp
  /-- DEC.ICMP (R171). -/
  | decIcmp
  /-- DEC.UDP (R191). -/
  | decUdp
  /-- DEC.PSH (R193). -/
  | decPsh
  /-- DEC.TCP (R224). -/
  | decTcp
  /-- FIN.IP (R152). -/
  | finIp
  /-- FIN.ICMP (R172). -/
  | finIcmp
  /-- BLD.IP (R153). -/
  | bldIp
  /-- BLD.ICMP (R173). -/
  | bldIcmp
  /-- UDP.PKT: build a whole IPv4 + UDP packet (R196). -/
  | udpPkt
  /-- BLD.PSH (R194). -/
  | bldPsh
  /-- BLD.TCP (R226). -/
  | bldTcp
  deriving DecidableEq, Repr

end Sys2Proof
end

