-- ==== Sys2Proof/WellFormed.lean ====
section
/-! DEFINITION. Which commands an instance has. A command has no operand fields, so the one check is whether the unit it
belongs to exists: the three TCP commands need HAS_TCP (R12, R75, R78). -/

namespace Sys2Proof

/-- The commands of the TCP unit (R12, conflict C14: there are three). -/
def Instr.usesTcp : Instr → Bool
  | .encTcp => true
  | .decTcp => true
  | .bldTcp => true
  | .nop => false
  | .ckClr => false
  | .ckAdd => false
  | .ckGet => false
  | .ckSum => false
  | .encIp => false
  | .encIcmp => false
  | .encUdp => false
  | .encPsh => false
  | .decIp => false
  | .decIcmp => false
  | .decUdp => false
  | .decPsh => false
  | .finIp => false
  | .finIcmp => false
  | .bldIp => false
  | .bldIcmp => false
  | .udpPkt => false
  | .bldPsh => false

/-- A command is well formed on an instance when the instance has its unit (R75, R78). -/
def Instr.wellFormed (hasTcp : Bool) (i : Instr) : Bool := hasTcp || !i.usesTcp

end Sys2Proof
end

