-- ==== Sys2Proof/Decode.lean ====
section
/-! DEFINITION. The command word (R70 to R75, R78): its three fields, the total decoder, the encoder, and the host's way of
asking the decoder about one row of the opcode table. -/

namespace Sys2Proof

/-- Why a word is no command (R78). The names are the model's; every one of them executes as IllegalCommand (R75, R263). -/
inductive Illegal where
  /-- Bits 31:12 are not all zero (R71). -/
  | zeroField
  /-- No operation has this OPC (R73). -/
  | opcode
  /-- HT is not 0 on an operation that takes no header type (R71). -/
  | headerTypeNotZero
  /-- HT names no header type: 5 to 15 (R72). -/
  | headerType
  /-- FIN exists for IP and ICMP only (R74, R78). -/
  | noFinalize
  /-- A TCP command where the TCP unit is absent (R75). -/
  | noTcpUnit
  deriving DecidableEq, Repr

/-- OPC, bits 7:0 (R71). -/
def wordOpc (w : Word) : Byte := w.extractLsb' 0 8

/-- HT, bits 11:8 (R71). -/
def wordHt (w : Word) : BitVec 4 := w.extractLsb' 8 4

/-- ZERO, bits 31:12 (R71). -/
def wordZero (w : Word) : BitVec 20 := w.extractLsb' 12 20

/-- An operation that takes no header type (R75, second line). -/
def decodePlain (ht : BitVec 4) (i : Instr) : Except Illegal Instr :=
  if ht = 0#4 then .ok i else .error .headerTypeNotZero

/-- ENC, DEC or BLD of the header type HT names (R72, R75). -/
def decodeTyped (hasTcp : Bool) (ht : BitVec 4) (ip icmp udp psh tcp : Instr) : Except Illegal Instr :=
  if ht = 0#4 then .ok ip
  else if ht = 1#4 then .ok icmp
  else if ht = 2#4 then .ok udp
  else if ht = 3#4 then .ok psh
  else if ht = 4#4 then (if hasTcp then .ok tcp else .error .noTcpUnit)
  else .error .headerType

/-- FIN of the header type HT names: IP and ICMP only (R75). -/
def decodeFin (ht : BitVec 4) : Except Illegal Instr :=
  if ht = 0#4 then .ok .finIp
  else if ht = 1#4 then .ok .finIcmp
  else .error .noFinalize

/-- Decode, total on 32-bit words (R75). -/
def decode (hasTcp : Bool) (w : Word) : Except Illegal Instr :=
  if wordZero w ≠ 0#20 then .error .zeroField
  else if wordOpc w = 0x00#8 then decodePlain (wordHt w) .nop
  else if wordOpc w = 0x10#8 then decodePlain (wordHt w) .ckClr
  else if wordOpc w = 0x11#8 then decodePlain (wordHt w) .ckAdd
  else if wordOpc w = 0x12#8 then decodePlain (wordHt w) .ckGet
  else if wordOpc w = 0x13#8 then decodePlain (wordHt w) .ckSum
  else if wordOpc w = 0x20#8 then decodeTyped hasTcp (wordHt w) .encIp .encIcmp .encUdp .encPsh .encTcp
  else if wordOpc w = 0x21#8 then decodeTyped hasTcp (wordHt w) .decIp .decIcmp .decUdp .decPsh .decTcp
  else if wordOpc w = 0x22#8 then decodeFin (wordHt w)
  else if wordOpc w = 0x30#8 then decodeTyped hasTcp (wordHt w) .bldIp .bldIcmp .udpPkt .bldPsh .bldTcp
  else .error .opcode

/-- The word of format C with this HT and OPC (R71): ZERO, HT, OPC from the top. -/
def commandWord (ht : BitVec 4) (opc : Byte) : Word := 0#20 ++ ht ++ opc

/-- The command word of each command, from the OPC and HT columns of R74. -/
def encode : Instr → Word
  | .nop => commandWord 0#4 0x00#8
  | .ckClr => commandWord 0#4 0x10#8
  | .ckAdd => commandWord 0#4 0x11#8
  | .ckGet => commandWord 0#4 0x12#8
  | .ckSum => commandWord 0#4 0x13#8
  | .encIp => commandWord 0#4 0x20#8
  | .encIcmp => commandWord 1#4 0x20#8
  | .encUdp => commandWord 2#4 0x20#8
  | .encPsh => commandWord 3#4 0x20#8
  | .encTcp => commandWord 4#4 0x20#8
  | .decIp => commandWord 0#4 0x21#8
  | .decIcmp => commandWord 1#4 0x21#8
  | .decUdp => commandWord 2#4 0x21#8
  | .decPsh => commandWord 3#4 0x21#8
  | .decTcp => commandWord 4#4 0x21#8
  | .finIp => commandWord 0#4 0x22#8
  | .finIcmp => commandWord 1#4 0x22#8
  | .bldIp => commandWord 0#4 0x30#8
  | .bldIcmp => commandWord 1#4 0x30#8
  | .udpPkt => commandWord 2#4 0x30#8
  | .bldPsh => commandWord 3#4 0x30#8
  | .bldTcp => commandWord 4#4 0x30#8

/-- What the decoder reads from an instruction whose bits are w, on the instance State.reset is (HAS_TCP true, the
default of R12). A command is one 32-bit word (R70), so a number that does not fit one is none. -/
def decodeTableWord (nbits w : Nat) : Option Instr :=
  if w % 2 ^ nbits < 2 ^ 32 then (decode Config.params.hasTcp (BitVec.ofNat 32 (w % 2 ^ nbits))).toOption else none

end Sys2Proof
end

