-- ==== Sys2Proof/Machine/State.lean ====
section
/-! DEFINITION. The whole state of CKSUM-CORE (R20 to R37), the host's side of its interface as far as one deterministic
machine needs it (the transactions still to come and the answers so far), and the state after reset (R40). -/

namespace Sys2Proof.Machine

/-! ### Checksum unit and argument registers -/

/-- The checksum unit: ACC, ODD, HOLD (R21). -/
structure Csu where
  /-- ACC: the running ones-complement sum of the 16-bit groups absorbed. -/
  acc : Half
  /-- ODD: an odd number of bytes has been absorbed, so one byte waits for its partner. -/
  odd : Bool
  /-- HOLD: the waiting byte when ODD, else zero. -/
  hold : Byte
  deriving DecidableEq, Repr

/-- The six argument registers (R22, NARG of R12). -/
structure Args where
  a0 : Word
  a1 : Word
  a2 : Word
  a3 : Word
  a4 : Word
  a5 : Word
  deriving DecidableEq, Repr

/-! ### Header values and banks: the fields in wire order, each of its wire width -/

/-- Bank IP, an IPv4 header value (R25). -/
structure IpHeader where
  vihl : Byte
  tos : Byte
  tlen : Half
  id : Half
  frag : Half
  ttl : Byte
  proto : Byte
  csum : Half
  src : Word
  dst : Word
  deriving DecidableEq, Repr

/-- Bank ICMP, an ICMP echo header value (R26). -/
structure IcmpHeader where
  type : Byte
  code : Byte
  csum : Half
  id : Half
  seq : Half
  deriving DecidableEq, Repr

/-- Bank UDP, a UDP header value (R27). -/
structure UdpHeader where
  sport : Half
  dport : Half
  len : Half
  csum : Half
  deriving DecidableEq, Repr

/-- Bank PSH, a UDP pseudo-header value (R28). -/
structure PshHeader where
  src : Word
  dst : Word
  zero : Byte
  proto : Byte
  len : Half
  deriving DecidableEq, Repr

/-- The nine fixed header registers of bank TCP, a TCP header value (R29, R130). -/
structure TcpHeader where
  sport : Half
  dport : Half
  seq : Word
  ack : Word
  off : Byte
  flags : Byte
  win : Half
  csum : Half
  urg : Half
  deriving DecidableEq, Repr

/-- Bank TCP, a TCP packet value: header, options in a 40-byte store, payload as an (address, length) pair into PBUF (R29,
R220). -/
structure TcpBank where
  hdr : TcpHeader
  /-- TCP.OPTLEN: the options' length in bytes. -/
  optLen : BitVec 6
  /-- TCP.OPT[0..40): the option bytes. -/
  opt : Vector Byte 40
  /-- TCP.DADDR: PBUF address of the payload. -/
  daddr : Word
  /-- TCP.DLEN: payload length in bytes. -/
  dlen : Word
  deriving DecidableEq, Repr

/-! ### Status -/

/-- The six errors a command can end with (R260). -/
inductive CmdError where
  /-- Code 1: a DEC command's length operand is not the type's length (R261). -/
  | lengthMismatch
  /-- Code 2: finalize's re-verification failed; halts the block (R262, R268). -/
  | checksumConsistencyViolation
  /-- Code 3: the word written to CMD is no command (R263). -/
  | illegalCommand
  /-- Code 4: a PBUF range does not fit the buffer (R264). -/
  | bufferRange
  /-- Code 5: a length would not fit its u16 field (R265). -/
  | lengthOverflow
  /-- Code 6: the TCP bank or the TCP packet is malformed (R267). -/
  | tcpFormat
  deriving DecidableEq, Repr

/-- STATUS: the three fields that are stored; the other bits read as 0 (R32). -/
structure Status where
  /-- ERR: the error of the most recent command, none for code 0. -/
  err : Option CmdError
  /-- STICKY: some command since reset has ended with an error. -/
  sticky : Bool
  /-- HALT: a ChecksumConsistencyViolation has occurred. -/
  halt : Bool
  deriving DecidableEq, Repr

/-! ### The host's side -/

/-- One host transaction (R60, R302). -/
inductive Transaction where
  /-- Write a 32-bit word to the register at a byte offset of the register space; to CMD, this executes a command. -/
  | regWrite (offset : Nat) (value : Word)
  /-- Read the register at a byte offset of the register space. -/
  | regRead (offset : Nat)
  /-- Write one byte of PBUF. -/
  | bufWrite (addr : Word) (value : Byte)
  /-- Read one byte of PBUF. -/
  | bufRead (addr : Word)
  /-- Assert the reset input between two transactions (R290, R291). -/
  | reset
  deriving DecidableEq, Repr

/-- What a host read gives back (R30, R56): a register's value, zero-extended, or a byte of PBUF. -/
inductive Reply where
  | word (value : Word)
  | byte (value : Byte)
  deriving DecidableEq, Repr

/-! ### Memory and the whole state -/

/-- PBUF (R37), sparse: the bytes that the host or a command has written since the latest reset, addresses strictly rising. An
unlisted address has no listed value: its byte is unspecified (R40), and what a read of it gives is State.pbufByte's matter. -/
abbrev Memory := List Host.Cell

/-- The whole state (R20). The first eleven fields are the block's registers, mem is its buffer; epoch, params, script and
replies are the model's own (log entries 1 to 6). -/
structure State where
  csu : Csu
  args : Args
  ip : IpHeader
  icmp : IcmpHeader
  udp : UdpHeader
  psh : PshHeader
  /-- Reached by nothing when params.hasTcp is false (R29, R36). -/
  tcp : TcpBank
  /-- CMD's read value: the last word written to it (R31). -/
  cmd : Word
  status : Status
  /-- RES bits 15:0; bits 31:16 read as 0 (R33). -/
  res : Half
  /-- OLEN (R34). -/
  olen : Word
  mem : Memory
  /-- How many resets there have been; selects the content of the bytes nothing has written. -/
  epoch : Nat
  /-- The instance's parameters: no step changes them (R38). -/
  params : Params
  /-- The host's transactions still to come, the next one first. -/
  script : List Transaction
  /-- What the host's reads have given back, the first one first. -/
  replies : List Reply
  deriving DecidableEq, Repr

/-! ### Reset values (R40) -/

def Csu.clear : Csu := { acc := 0x0000#16, odd := false, hold := 0x00#8 }
def Args.resetValue : Args := { a0 := 0#32, a1 := 0#32, a2 := 0#32, a3 := 0#32, a4 := 0#32, a5 := 0#32 }
def IpHeader.resetValue : IpHeader :=
  { vihl := 0#8, tos := 0#8, tlen := 0#16, id := 0#16, frag := 0#16, ttl := 0#8, proto := 0#8, csum := 0#16, src := 0#32,
    dst := 0#32 }
def IcmpHeader.resetValue : IcmpHeader := { type := 0#8, code := 0#8, csum := 0#16, id := 0#16, seq := 0#16 }
def UdpHeader.resetValue : UdpHeader := { sport := 0#16, dport := 0#16, len := 0#16, csum := 0#16 }
def PshHeader.resetValue : PshHeader := { src := 0#32, dst := 0#32, zero := 0#8, proto := 0#8, len := 0#16 }
def TcpHeader.resetValue : TcpHeader :=
  { sport := 0#16, dport := 0#16, seq := 0#32, ack := 0#32, off := 0#8, flags := 0#8, win := 0#16, csum := 0#16, urg := 0#16 }
def TcpBank.resetValue : TcpBank :=
  { hdr := TcpHeader.resetValue, optLen := 0#6, opt := Vector.replicate 40 0#8, daddr := 0#32, dlen := 0#32 }
def Status.clear : Status := { err := none, sticky := false, halt := false }

/-- The machine right after its first reset (R40, R290), with no transaction to come. -/
def State.reset : State where
  csu := Csu.clear
  args := Args.resetValue
  ip := IpHeader.resetValue
  icmp := IcmpHeader.resetValue
  udp := UdpHeader.resetValue
  psh := PshHeader.resetValue
  tcp := TcpBank.resetValue
  cmd := 0#32
  status := Status.clear
  res := 0#16
  olen := 0#32
  mem := []
  epoch := 0
  params := Config.params
  script := []
  replies := []

/-! ### How a step can stop -/

/-- Why the machine stops. No command and no transaction of the spec's interface stops it: the spec's errors are next states
with STATUS written (R260, R266). -/
inductive Fault where
  /-- Raised by step when the host has no transaction to make: the run has ended (R303), and the core "has no step unless the
  host issues a command" (R16). Safe: the model stops where nothing happens. -/
  | scriptEnded
  deriving DecidableEq, Repr

/-- What the model has no step for. -/
inductive Refusal where
  /-- An instruction without a meaning; no arm of exec raises it. Safe. -/
  | notModelled (mnemonic : String)
  /-- Raised by a host access to a register offset that is unmapped or no multiple of 4, or to a TCP register of an instance
  without the TCP unit (R36; K8: refuse). Safe: the spec has no step there. -/
  | unmappedOffset (offset : Nat)
  /-- Raised by a host write to STATUS, RES, OLEN or CKST (R36; K8: refuse). Safe: the spec has no step there. -/
  | readOnlyRegister (offset : Nat)
  /-- Raised by a host access to a PBUF address at or above PBUF_SIZE (R302; K8: refuse). Safe: the spec has no step there. -/
  | bufferAddress (addr : Word)
  deriving DecidableEq, Repr

end Sys2Proof.Machine
end

