-- ==== Sys2Proof/Machine/Engine.lean ====
section
/-! DEFINITION. The checksum engine's pure functions (R100 to R109). -/

namespace Sys2Proof.Machine

/-- The 16-bit big-endian group of two bytes (R14). -/
def u16be (hi lo : Byte) : Half := hi ++ lo

/-- Ones-complement 16-bit addition with end-around carry (R100). -/
def add1c (a b : Half) : Half :=
  if a.toNat + b.toNat > 0xFFFF then BitVec.ofNat 16 (a.toNat + b.toNat - 0x10000 + 1)
  else BitVec.ofNat 16 (a.toNat + b.toNat)

/-- Adds the 16-bit groups of a byte list to acc, a trailing byte as the high byte of a group (R102). -/
def foldFrom (acc : Half) : List Byte → Half
  | [] => acc
  | [b] => add1c acc (u16be b 0x00#8)
  | b0 :: b1 :: rest => foldFrom (add1c acc (u16be b0 b1)) rest

/-- The accumulated sum of a byte list (R102). -/
def fold (bs : List Byte) : Half := foldFrom 0x0000#16 bs

/-- The Internet checksum of a byte list (R104). -/
def compute (bs : List Byte) : Half := ~~~(fold bs)

/-- A sequence that holds its own checksum field verifies when its checksum is zero (R109). -/
def verifies (bs : List Byte) : Bool := compute bs == 0x0000#16

/-- The checksum unit absorbs one byte (R108). -/
def absorb1 (c : Csu) (b : Byte) : Csu :=
  if c.odd then { acc := add1c c.acc (u16be c.hold b), odd := false, hold := 0x00#8 }
  else { acc := c.acc, odd := true, hold := b }

/-- The checksum unit absorbs a byte list, in order (R108). -/
def absorb (c : Csu) : List Byte → Csu
  | [] => c
  | b :: bs => absorb (absorb1 c b) bs

/-- The sum of everything absorbed, a pending byte padded with zero for the read-out only (R108). -/
def Csu.final (c : Csu) : Half := if c.odd then add1c c.acc (u16be c.hold 0x00#8) else c.acc

end Sys2Proof.Machine
end

