-- ==== Sys2Proof/Machine/Flags.lean ====
section
/-! DEFINITION. STATUS: how a command's outcome is recorded in ERR, STICKY and HALT (R32, R266, R268, R270), and the words the
host reads for STATUS and CKST (R32, R35). These are the block's only flags: the checksum's carry is consumed inside add1c
(R115). -/

namespace Sys2Proof.Machine

/-- The code of an error in STATUS.ERR (R32, R260). -/
def CmdError.code : CmdError → BitVec 4
  | .lengthMismatch => 1#4
  | .checksumConsistencyViolation => 2#4
  | .illegalCommand => 3#4
  | .bufferRange => 4#4
  | .lengthOverflow => 5#4
  | .tcpFormat => 6#4

/-- STATUS.ERR: 0 for no error (R32). -/
def errCode : Option CmdError → BitVec 4
  | none => 0#4
  | some e => e.code

/-- Whether an error halts the block: ChecksumConsistencyViolation alone does (R266, R268). -/
def CmdError.halts : CmdError → Bool
  | .checksumConsistencyViolation => true
  | .lengthMismatch => false
  | .illegalCommand => false
  | .bufferRange => false
  | .lengthOverflow => false
  | .tcpFormat => false

/-- STATUS after a command that ends with error e (R266, R268). -/
def Status.afterError (e : CmdError) (st : Status) : Status :=
  { err := some e, sticky := true, halt := st.halt || e.halts }

/-- STATUS after a command that ends without error: ERR is 0, STICKY and HALT are left alone (R266). -/
def Status.afterSuccess (st : Status) : Status :=
  { err := none, sticky := st.sticky, halt := st.halt }

/-- The word the host reads at STATUS (R32): HALT in bit 5, STICKY in bit 4, ERR in bits 3:0, the rest 0. -/
def Status.word (st : Status) : Word :=
  0#26 ++ BitVec.ofBool st.halt ++ BitVec.ofBool st.sticky ++ errCode st.err

/-- The word the host reads at CKST (R35): HOLD in bits 31:24, ODD in bit 16, ACC in bits 15:0, bits 23:17 0. -/
def Csu.word (c : Csu) : Word :=
  c.hold ++ 0#7 ++ BitVec.ofBool c.odd ++ c.acc

end Sys2Proof.Machine
end

