-- ==== Sys2Proof/Machine/Ops.lean ====
section
/-! DEFINITION. The named operations over the state: PBUF as sparse memory (R15, R50, R57, R58), one update per part of the
state, how a command ends (R266, R268) and how it makes its checks in order (R269). -/

namespace Sys2Proof.Machine

/-! ### PBUF as a list of cells -/

/-- The byte listed for an address; none where nothing has been written since the latest reset. -/
def Memory.find : Memory → Nat → Option Byte
  | [], _ => none
  | c :: rest, a => if a = c.1 then some c.2 else Memory.find rest a

/-- Writes one byte, keeping the addresses strictly rising. -/
def Memory.put : Memory → Nat → Byte → Memory
  | [], a, b => [(a, b)]
  | c :: rest, a, b =>
    if a < c.1 then (a, b) :: c :: rest
    else if a = c.1 then (a, b) :: rest
    else c :: Memory.put rest a b

/-- Writes a byte list at rising addresses (MemWrite of R15). -/
def Memory.putBytes (m : Memory) (a : Nat) : List Byte → Memory
  | [] => m
  | b :: bs => Memory.putBytes (m.put a b) (a + 1) bs

/-- Every address of the list is above lo, and they rise strictly. -/
def Memory.risesAbove : Nat → Memory → Bool
  | _, [] => true
  | lo, c :: rest => decide (lo < c.1) && Memory.risesAbove c.1 rest

/-- The canonical form: addresses strictly rising, all of them below size, the bytes of the buffer (R37). No listed entry equals
what an unlisted address has, since an unlisted address has no value. -/
def Memory.wf (size : Nat) : Memory → Bool
  | [] => true
  | c :: rest => Memory.risesAbove c.1 rest && (c :: rest).all (fun d => decide (d.1 < size))

/-! ### One update per part of the state -/

def State.setCsu (s : State) (v : Csu) : State := { s with csu := v }
def State.setArgs (s : State) (v : Args) : State := { s with args := v }
def State.setIp (s : State) (v : IpHeader) : State := { s with ip := v }
def State.setIcmp (s : State) (v : IcmpHeader) : State := { s with icmp := v }
def State.setUdp (s : State) (v : UdpHeader) : State := { s with udp := v }
def State.setPsh (s : State) (v : PshHeader) : State := { s with psh := v }
def State.setTcp (s : State) (v : TcpBank) : State := { s with tcp := v }
def State.setCmd (s : State) (v : Word) : State := { s with cmd := v }
def State.setStatus (s : State) (v : Status) : State := { s with status := v }
def State.setRes (s : State) (v : Half) : State := { s with res := v }
def State.setOlen (s : State) (v : Word) : State := { s with olen := v }
def State.setMem (s : State) (v : Memory) : State := { s with mem := v }
def State.setScript (s : State) (v : List Transaction) : State := { s with script := v }
def State.addReply (s : State) (v : Reply) : State := { s with replies := s.replies ++ [v] }

/-! ### PBUF -/

/-- One byte of PBUF: the byte written last since the latest reset, else an unspecified byte, free (R40, R292, K2). -/
def State.pbufByte (s : State) (a : Nat) : Byte := (s.mem.find a).getD (Config.powerOnByte s.epoch a)

/-- MemRead(addr, n): n bytes from addr (R15). -/
def State.memRead (s : State) (a : Nat) : Nat → List Byte
  | 0 => []
  | n + 1 => s.pbufByte a :: State.memRead s (a + 1) n

/-- MemWrite(addr, len(bs), bs) (R15). -/
def State.memWrite (s : State) (a : Nat) (bs : List Byte) : State := s.setMem (s.mem.putBytes a bs)

/-- The range check, in unbounded arithmetic: with n = 0 no byte is named and the check passes (R57). -/
def State.inRange (s : State) (a n : Nat) : Bool := n == 0 || decide (a + n ≤ s.params.pbufSize)

/-! ### How a command ends -/

/-- Error entry, this block's form of taking an exception: STATUS is written and nothing else; for
ChecksumConsistencyViolation the block also halts (R266, R268). There is nothing to return from (R270). -/
def State.raise (e : CmdError) (s : State) : State := s.setStatus (s.status.afterError e)

/-- A command completes without error (R266). -/
def State.succeed (s : State) : State := s.setStatus s.status.afterSuccess

/-- One check of a command: whether it passes, and the error it raises if not. -/
abbrev Check := Bool × CmdError

/-- The first check that fails; later checks are not made (R269). -/
def firstFailure : List Check → Option CmdError
  | [] => none
  | c :: rest => if c.1 then firstFailure rest else some c.2

/-- A command makes its checks in order, and either raises the first failing one's error, on the state before it, or has its
effect and completes (R266, R269). -/
def State.command (s : State) (checks : List Check) (effect : State) : State :=
  match firstFailure checks with
  | none => effect.succeed
  | some e => s.raise e

/-- The assertion that ends finalize, made after the command's writes: these stay when it fails (R106, R262, R268). -/
def State.assertVerified (s : State) (verified : Bool) : State :=
  if verified then s.succeed else s.raise .checksumConsistencyViolation

/-- A command whose effect ends in finalize's assertion (R152, R153, R172, R173). -/
def State.finalizing (s : State) (checks : List Check) (effect : State) (verified : Bool) : State :=
  match firstFailure checks with
  | none => effect.assertVerified verified
  | some e => s.raise e

/-- The value OLEN takes for a byte count (R34): the count, where 32 bits hold it. Log entry 10. -/
def olenWord (n : Nat) : Word := if n < 2 ^ 32 then BitVec.ofNat 32 n else Config.olenUnstated n

/-- MemWrite and OLEN of the ENC commands and UDP.PKT (R136, R196, R222). -/
def State.emit (s : State) (a : Nat) (bs : List Byte) : State := (s.memWrite a bs).setOlen (olenWord bs.length)

end Sys2Proof.Machine
end

