-- ==== Sys2Proof/Machine/Operands.lean ====
section
/-! DEFINITION. Operand assembly (R76, R77): every operand of a command is an argument register or its low bits; nothing is
sign-extended, scaled or truncated, and a length is a whole 32-bit unsigned number. -/

namespace Sys2Proof.Machine

/-- A "u16" operand: bits 15:0; the upper bits are ignored (R76, R77). -/
def lowHalf (w : Word) : Half := w.extractLsb' 0 16

/-- A "u8" operand: bits 7:0; the upper bits are ignored (R76, R77). -/
def lowByte (w : Word) : Byte := w.extractLsb' 0 8

/-- sourcePort of a ports word: bits 31:16 (R76). -/
def portsSource (w : Word) : Half := w.extractLsb' 16 16

/-- destinationPort of a ports word: bits 15:0 (R76). -/
def portsDest (w : Word) : Half := w.extractLsb' 0 16

/-! ### CK.ADD, CK.SUM, DEC.*: a buffer as (address, length) -/

def Args.srcAddr (a : Args) : Nat := a.a0.toNat
def Args.srcLen (a : Args) : Nat := a.a1.toNat

/-! ### ENC.* -/

def Args.dstAddr (a : Args) : Nat := a.a0.toNat

/-! ### BLD.IP, BLD.ICMP, BLD.PSH -/

def Args.ipPayloadLen (a : Args) : Half := lowHalf a.a0
def Args.ipProto (a : Args) : Byte := lowByte a.a1
def Args.ipDst (a : Args) : Word := a.a2
def Args.icmpSeq (a : Args) : Half := lowHalf a.a0
def Args.pshLen (a : Args) : Half := lowHalf a.a0

/-! ### UDP.PKT -/

def Args.pktPayloadAddr (a : Args) : Nat := a.a0.toNat
def Args.pktPayloadLen (a : Args) : Nat := a.a1.toNat
def Args.pktDst (a : Args) : Word := a.a2
def Args.pktSport (a : Args) : Half := portsSource a.a3
def Args.pktDport (a : Args) : Half := portsDest a.a3
def Args.pktOut (a : Args) : Nat := a.a4.toNat

/-! ### BLD.TCP -/

def Args.tcpDataAddr (a : Args) : Word := a.a0
def Args.tcpDataLen (a : Args) : Word := a.a1
def Args.tcpSeq (a : Args) : Word := a.a2
def Args.tcpAck (a : Args) : Word := a.a3
def Args.tcpSport (a : Args) : Half := portsSource a.a4
def Args.tcpDport (a : Args) : Half := portsDest a.a4
def Args.tcpFlags (a : Args) : Byte := lowByte a.a5

end Sys2Proof.Machine
end

