-- ==== Sys2Proof/Machine/Checksum.lean ====
section
/-! DEFINITION. The checksum engine's commands: CK.CLR, CK.ADD, CK.GET, CK.SUM (R110 to R113). -/

namespace Sys2Proof.Machine

/-- The range check of CK.ADD and CK.SUM (R57, R111, R113). -/
def sourceChecks (s : State) : List Check := [(s.inRange s.args.srcAddr s.args.srcLen, .bufferRange)]

/-- The bytes CK.ADD and CK.SUM absorb (R111, R113). -/
def sourceBytes (s : State) : List Byte := s.memRead s.args.srcAddr s.args.srcLen

/-- CK.CLR: clear the accumulator (R110). -/
def execCkClr (s : State) : Host.Outcome State Fault Refusal := .next (s.setCsu Csu.clear).succeed

/-- CK.ADD: absorb PBUF bytes into the accumulator (R111). -/
def execCkAdd (s : State) : Host.Outcome State Fault Refusal :=
  .next (s.command (sourceChecks s) (s.setCsu (absorb s.csu (sourceBytes s))))

/-- CK.GET: read out the checksum of everything absorbed; the accumulator is kept (R112). -/
def execCkGet (s : State) : Host.Outcome State Fault Refusal := .next (s.setRes (~~~s.csu.final)).succeed

/-- CK.SUM: the checksum of a PBUF range, the accumulator left as after CK.CLR and CK.ADD (R113). -/
def execCkSum (s : State) : Host.Outcome State Fault Refusal :=
  .next (s.command (sourceChecks s)
    ((s.setCsu (absorb Csu.clear (sourceBytes s))).setRes (compute (sourceBytes s))))

end Sys2Proof.Machine
end

