-- ==== Sys2Proof/Machine/Codec.lean ====
section
/-! DEFINITION. The byte-layout codec (R130 to R135, R84 to R90): big-endian packing of the fields, encode and decode of the
five wire layouts, and finalize for the two header types that have it (R106). -/

namespace Sys2Proof.Machine

/-! ### Big-endian packing (R14, R51) -/

def be16 (v : Half) : List Byte := [v.extractLsb' 8 8, v.extractLsb' 0 8]

def be32 (v : Word) : List Byte := [v.extractLsb' 24 8, v.extractLsb' 16 8, v.extractLsb' 8 8, v.extractLsb' 0 8]

def u32be (b0 b1 b2 b3 : Byte) : Word := b0 ++ b1 ++ b2 ++ b3

/-- Byte i of a list; decode is defined, and called, on lists that have it (R132). -/
def byteAt (bs : List Byte) (i : Nat) : Byte := bs.getD i 0x00#8

/-- The u16 at offset i of a byte list (R132). -/
def halfAt (bs : List Byte) (i : Nat) : Half := u16be (byteAt bs i) (byteAt bs (i + 1))

/-- The u32 at offset i of a byte list (R132). -/
def wordAt (bs : List Byte) (i : Nat) : Word :=
  u32be (byteAt bs i) (byteAt bs (i + 1)) (byteAt bs (i + 2)) (byteAt bs (i + 3))

/-! ### encode (R131) -/

def encodeIp (h : IpHeader) : List Byte :=
  [h.vihl, h.tos] ++ be16 h.tlen ++ be16 h.id ++ be16 h.frag ++ [h.ttl, h.proto] ++ be16 h.csum ++ be32 h.src ++ be32 h.dst

def encodeIcmp (h : IcmpHeader) : List Byte := [h.type, h.code] ++ be16 h.csum ++ be16 h.id ++ be16 h.seq

def encodeUdp (h : UdpHeader) : List Byte := be16 h.sport ++ be16 h.dport ++ be16 h.len ++ be16 h.csum

def encodePsh (h : PshHeader) : List Byte := be32 h.src ++ be32 h.dst ++ [h.zero, h.proto] ++ be16 h.len

def encodeTcpHeader (h : TcpHeader) : List Byte :=
  be16 h.sport ++ be16 h.dport ++ be32 h.seq ++ be32 h.ack ++ [h.off, h.flags] ++ be16 h.win ++ be16 h.csum ++ be16 h.urg

/-! ### decode (R132), of a list of the type's length -/

def decodeIp (bs : List Byte) : IpHeader where
  vihl := byteAt bs 0
  tos := byteAt bs 1
  tlen := halfAt bs 2
  id := halfAt bs 4
  frag := halfAt bs 6
  ttl := byteAt bs 8
  proto := byteAt bs 9
  csum := halfAt bs 10
  src := wordAt bs 12
  dst := wordAt bs 16

def decodeIcmp (bs : List Byte) : IcmpHeader where
  type := byteAt bs 0
  code := byteAt bs 1
  csum := halfAt bs 2
  id := halfAt bs 4
  seq := halfAt bs 6

def decodeUdp (bs : List Byte) : UdpHeader where
  sport := halfAt bs 0
  dport := halfAt bs 2
  len := halfAt bs 4
  csum := halfAt bs 6

def decodePsh (bs : List Byte) : PshHeader where
  src := wordAt bs 0
  dst := wordAt bs 4
  zero := byteAt bs 8
  proto := byteAt bs 9
  len := halfAt bs 10

def decodeTcpHeader (bs : List Byte) : TcpHeader where
  sport := halfAt bs 0
  dport := halfAt bs 2
  seq := wordAt bs 4
  ack := wordAt bs 8
  off := byteAt bs 12
  flags := byteAt bs 13
  win := halfAt bs 14
  csum := halfAt bs 16
  urg := halfAt bs 18

/-! ### finalize (R106): the value it stores; the assertion after it is State.assertVerified -/

def finalizeIp (h : IpHeader) : IpHeader := { h with csum := compute (encodeIp { h with csum := 0x0000#16 }) }

def finalizeIcmp (h : IcmpHeader) : IcmpHeader := { h with csum := compute (encodeIcmp { h with csum := 0x0000#16 }) }

/-! ### The TCP packet's options (R29, R89, R90, R220) -/

/-- The maximum-segment-size option: kind, length, value big-endian (R90, R225). -/
def mssOption : List Byte := [Config.tcpMssKind, Config.tcpMssLen] ++ be16 Config.tcpMss

/-- An option store holding these bytes, the rest of it zero (R29, R224, R226). -/
def optStore (bs : List Byte) : Vector Byte 40 := Vector.ofFn fun i => byteAt bs i.val

/-- The data offset in bytes, 4 * OFF[7:4] (R89, R223). -/
def dataOffset (off : Byte) : Nat := 4 * (off.extractLsb' 4 4).toNat

/-- The option bytes of the packet value, OPT[0..OPTLEN) (R29, R221). -/
def TcpBank.options (t : TcpBank) : List Byte := t.opt.toList.take t.optLen.toNat

end Sys2Proof.Machine
end

