-- ==== Sys2Proof/Machine/Ipv4.lean ====
section
/-! DEFINITION. The shapes the fixed-size ENC and DEC commands share (R136, R137) and the IPv4 header unit: ENC.IP, DEC.IP,
FIN.IP, BLD.IP (R150 to R154). -/

namespace Sys2Proof.Machine

/-- ENC of a fixed-size type: write the encoding at a0 (R136). -/
def encFixed (s : State) (bs : List Byte) : State :=
  s.command [(s.inRange s.args.dstAddr bs.length, .bufferRange)] (s.emit s.args.dstAddr bs)

/-- The checks of DEC of a type of length n: the length first, then the range (R137). -/
def decChecks (s : State) (n : Nat) : List Check :=
  [(s.args.srcLen == n, .lengthMismatch), (s.inRange s.args.srcAddr n, .bufferRange)]

/-- ENC.IP (R150). -/
def execEncIp (s : State) : Host.Outcome State Fault Refusal := .next (encFixed s (encodeIp s.ip))

/-- DEC.IP (R151). -/
def execDecIp (s : State) : Host.Outcome State Fault Refusal :=
  .next (s.command (decChecks s Config.ipHlen) (s.setIp (decodeIp (s.memRead s.args.srcAddr Config.ipHlen))))

/-- FIN.IP: finalize in place (R152). -/
def execFinIp (s : State) : Host.Outcome State Fault Refusal :=
  .next (s.finalizing [] (s.setIp (finalizeIp s.ip)) (verifies (encodeIp (finalizeIp s.ip))))

/-- Whether 20 + payloadLength fits total_length (R153, R154). -/
def ipLengthFits (payloadLen : Half) : Bool := decide (Config.ipHlen + payloadLen.toNat ≤ Config.maxTotalLength)

/-- The IPv4 header build makes, finalized (R153; step 2 of R196). -/
def buildIp (p : Params) (payloadLen : Half) (proto : Byte) (dst : Word) : IpHeader :=
  finalizeIp
    { vihl := Config.ipVihl, tos := Config.ipTos, tlen := BitVec.ofNat 16 (Config.ipHlen + payloadLen.toNat), id := p.ipId,
      frag := Config.ipFrag, ttl := Config.ipTtl, proto := proto, csum := 0x0000#16, src := p.localAddr, dst := dst }

/-- The header BLD.IP builds from its operands (R153). -/
def bldIpHeader (s : State) : IpHeader := buildIp s.params s.args.ipPayloadLen s.args.ipProto s.args.ipDst

/-- BLD.IP (R153). -/
def execBldIp (s : State) : Host.Outcome State Fault Refusal :=
  .next (s.finalizing [(ipLengthFits s.args.ipPayloadLen, .lengthOverflow)] (s.setIp (bldIpHeader s))
    (verifies (encodeIp (bldIpHeader s))))

end Sys2Proof.Machine
end

