-- ==== Sys2Proof/Machine/Icmp.lean ====
section
/-! DEFINITION. The ICMP echo header unit: ENC.ICMP, DEC.ICMP, FIN.ICMP, BLD.ICMP (R170 to R173). -/

namespace Sys2Proof.Machine

/-- ENC.ICMP (R170). -/
def execEncIcmp (s : State) : Host.Outcome State Fault Refusal := .next (encFixed s (encodeIcmp s.icmp))

/-- DEC.ICMP (R171). -/
def execDecIcmp (s : State) : Host.Outcome State Fault Refusal :=
  .next (s.command (decChecks s Config.icmpHlen) (s.setIcmp (decodeIcmp (s.memRead s.args.srcAddr Config.icmpHlen))))

/-- FIN.ICMP: finalize in place (R172). -/
def execFinIcmp (s : State) : Host.Outcome State Fault Refusal :=
  .next (s.finalizing [] (s.setIcmp (finalizeIcmp s.icmp)) (verifies (encodeIcmp (finalizeIcmp s.icmp))))

/-- The echo-request header build makes, finalized (R173). -/
def buildIcmp (p : Params) (seq : Half) : IcmpHeader :=
  finalizeIcmp
    { type := Config.icmpTypeEchoRequest, code := Config.icmpCode, csum := 0x0000#16, id := p.icmpId, seq := seq }

/-- BLD.ICMP (R173). -/
def execBldIcmp (s : State) : Host.Outcome State Fault Refusal :=
  .next (s.finalizing [] (s.setIcmp (buildIcmp s.params s.args.icmpSeq))
    (verifies (encodeIcmp (buildIcmp s.params s.args.icmpSeq))))

end Sys2Proof.Machine
end

