-- ==== Sys2Proof/Machine/System.lean ====
section
/-! DEFINITION. System commands: NOP (R250). -/

namespace Sys2Proof.Machine

/-- NOP: no state change but STATUS.ERR (R250). -/
def execNop (s : State) : Host.Outcome State Fault Refusal := .next s.succeed

end Sys2Proof.Machine
end

