-- ==== Sys2Proof/Machine/Tcp.lean ====
section
/-! DEFINITION. The TCP header unit, partial: ENC.TCP, DEC.TCP, BLD.TCP (R220 to R228). No TCP checksum is ever computed
(R228). -/

namespace Sys2Proof.Machine

/-! ### ENC.TCP (R222) -/

/-- The bank's invariant, which ENC.TCP checks: options word-aligned, at most 40 bytes, in agreement with the data offset. -/
def tcpFormatOk (t : TcpBank) : Bool :=
  decide (t.optLen.toNat ≤ Config.tcpOptMax) && t.optLen.toNat % 4 == 0 &&
    dataOffset t.hdr.off == Config.tcpHlen + t.optLen.toNat

/-- The packet's length, 20 + OPTLEN + DLEN, in unbounded arithmetic. -/
def encTcpLen (t : TcpBank) : Nat := Config.tcpHlen + t.optLen.toNat + t.dlen.toNat

/-- The checks of ENC.TCP in order. -/
def encTcpChecks (s : State) : List Check :=
  [(tcpFormatOk s.tcp, .tcpFormat),
   (s.inRange s.tcp.daddr.toNat s.tcp.dlen.toNat, .bufferRange),
   (s.inRange s.args.dstAddr (encTcpLen s.tcp), .bufferRange)]

/-- The packet's bytes: header, options, and the payload as PBUF holds it now (R220, R221). -/
def encTcpBytes (s : State) : List Byte :=
  encodeTcpHeader s.tcp.hdr ++ s.tcp.options ++ s.memRead s.tcp.daddr.toNat s.tcp.dlen.toNat

/-- ENC.TCP (R222). -/
def execEncTcp (s : State) : Host.Outcome State Fault Refusal :=
  .next (s.command (encTcpChecks s) (s.emit s.args.dstAddr (encTcpBytes s)))

/-! ### DEC.TCP (R224) -/

/-- The buffer handed to parse. -/
def decTcpBytes (s : State) : List Byte := s.memRead s.args.srcAddr s.args.srcLen

/-- The header of its first 20 bytes (R223). -/
def decTcpHeader (s : State) : TcpHeader := decodeTcpHeader ((decTcpBytes s).take Config.tcpHlen)

/-- The data offset in bytes. -/
def decTcpOff (s : State) : Nat := dataOffset (decTcpHeader s).off

/-- The checks of DEC.TCP in order: TcpFormat on buffer contents comes after the range check (R269). -/
def decTcpChecks (s : State) : List Check :=
  [(decide (Config.tcpHlen ≤ s.args.srcLen), .lengthMismatch),
   (s.inRange s.args.srcAddr s.args.srcLen, .bufferRange),
   (decide (Config.tcpHlen ≤ decTcpOff s) && decide (decTcpOff s ≤ s.args.srcLen), .tcpFormat)]

/-- The bank DEC.TCP writes; DADDR is the 32-bit truncation R115 states. -/
def decTcpBank (s : State) : TcpBank where
  hdr := decTcpHeader s
  optLen := BitVec.ofNat 6 (decTcpOff s - Config.tcpHlen)
  opt := optStore (((decTcpBytes s).take (decTcpOff s)).drop Config.tcpHlen)
  daddr := BitVec.ofNat 32 (s.args.srcAddr + decTcpOff s)
  dlen := BitVec.ofNat 32 (s.args.srcLen - decTcpOff s)

/-- DEC.TCP (R224). -/
def execDecTcp (s : State) : Host.Outcome State Fault Refusal :=
  .next (s.command (decTcpChecks s) (s.setTcp (decTcpBank s)))

/-! ### BLD.TCP (R226) -/

/-- The options build emits: the MSS option when flags is exactly the SYN bit, else none (R226, R227). -/
def bldTcpOptions (p : Params) (flags : Byte) : List Byte := if flags = p.tcpFlagSyn then mssOption else []

/-- The offset byte of a header with this many option bytes: the data offset in words, reserved nibble 0 (R226). -/
def offsetByte (optLen : Nat) : Byte := BitVec.ofNat 4 ((Config.tcpHlen + optLen) / 4) ++ 0#4

/-- The bank BLD.TCP writes, all 22 registers (R226). -/
def bldTcpBank (p : Params) (a : Args) : TcpBank where
  hdr :=
    { sport := a.tcpSport, dport := a.tcpDport, seq := a.tcpSeq, ack := a.tcpAck,
      off := offsetByte (bldTcpOptions p a.tcpFlags).length, flags := a.tcpFlags, win := p.tcpWindow, csum := 0x0000#16,
      urg := 0x0000#16 }
  optLen := BitVec.ofNat 6 (bldTcpOptions p a.tcpFlags).length
  opt := optStore (bldTcpOptions p a.tcpFlags)
  daddr := a.tcpDataAddr
  dlen := a.tcpDataLen

/-- BLD.TCP: reads no PBUF byte and raises nothing (R226). -/
def execBldTcp (s : State) : Host.Outcome State Fault Refusal := .next (s.setTcp (bldTcpBank s.params s.args)).succeed

end Sys2Proof.Machine
end

