-- ==== Sys2Proof/Machine/Udp.lean ====
section
/-! DEFINITION. The UDP header unit, the pseudo-header constructor and the packet builder: ENC.UDP, DEC.UDP, ENC.PSH, DEC.PSH,
BLD.PSH, UDP.PKT (R190 to R199). -/

namespace Sys2Proof.Machine

/-- ENC.UDP (R190). -/
def execEncUdp (s : State) : Host.Outcome State Fault Refusal := .next (encFixed s (encodeUdp s.udp))

/-- DEC.UDP (R191). -/
def execDecUdp (s : State) : Host.Outcome State Fault Refusal :=
  .next (s.command (decChecks s Config.udpHlen) (s.setUdp (decodeUdp (s.memRead s.args.srcAddr Config.udpHlen))))

/-- ENC.PSH (R192). -/
def execEncPsh (s : State) : Host.Outcome State Fault Refusal := .next (encFixed s (encodePsh s.psh))

/-- DEC.PSH (R193). -/
def execDecPsh (s : State) : Host.Outcome State Fault Refusal :=
  .next (s.command (decChecks s Config.pshLen) (s.setPsh (decodePsh (s.memRead s.args.srcAddr Config.pshLen))))

/-- The pseudo-header of an IPv4 header and a UDP length (R194; step 3 of R196). -/
def pseudoOf (ip : IpHeader) (udpLen : Half) : PshHeader :=
  { src := ip.src, dst := ip.dst, zero := 0x00#8, proto := ip.proto, len := udpLen }

/-- BLD.PSH (R194). -/
def execBldPsh (s : State) : Host.Outcome State Fault Refusal := .next (s.setPsh (pseudoOf s.ip s.args.pshLen)).succeed

/-! ### UDP.PKT, step by step (R196) -/

/-- Step 1: the UDP length, 8 + n. -/
def pktUdpLen (s : State) : Half := BitVec.ofNat 16 (Config.udpHlen + s.args.pktPayloadLen)

/-- Step 2: the transient IPv4 header, built as BLD.IP builds. -/
def pktIp (s : State) : IpHeader := buildIp s.params (pktUdpLen s) Config.protoUdp s.args.pktDst

/-- The payload, read before anything is written (R58). -/
def pktPayload (s : State) : List Byte := s.memRead s.args.pktPayloadAddr s.args.pktPayloadLen

/-- Step 4: the UDP header with checksum field 0. -/
def pktUdp0 (s : State) : UdpHeader :=
  { sport := s.args.pktSport, dport := s.args.pktDport, len := pktUdpLen s, csum := 0x0000#16 }

/-- Steps 3 and 5: the UDP header with the checksum over pseudo-header, header and payload, stored as it is (R199). -/
def pktUdp (s : State) : UdpHeader :=
  { pktUdp0 s with
    csum := compute (encodePsh (pseudoOf (pktIp s) (pktUdpLen s)) ++ encodeUdp (pktUdp0 s) ++ pktPayload s) }

/-- Step 6: the packet. -/
def pktBytes (s : State) : List Byte := encodeIp (pktIp s) ++ encodeUdp (pktUdp s) ++ pktPayload s

/-- The bytes a packet with this payload has: 28 + n (R197). -/
def pktLen (s : State) : Nat := Config.ipHlen + Config.udpHlen + s.args.pktPayloadLen

/-- The checks of UDP.PKT in the order of R196 and R269; the last is the assertion of step 2's finalize, before any write. -/
def pktChecks (s : State) : List Check :=
  [(decide (s.args.pktPayloadLen ≤ Config.maxUdpPayload), .lengthOverflow),
   (s.inRange s.args.pktPayloadAddr s.args.pktPayloadLen, .bufferRange),
   (s.inRange s.args.pktOut (pktLen s), .bufferRange),
   (verifies (encodeIp (pktIp s)), .checksumConsistencyViolation)]

/-- UDP.PKT (R196). -/
def execUdpPkt (s : State) : Host.Outcome State Fault Refusal :=
  .next (s.command (pktChecks s) (s.emit s.args.pktOut (pktBytes s)))

end Sys2Proof.Machine
end

