-- ==== Sys2Proof/Machine/Dispatch.lean ====
section
/-! DEFINITION. One arm per command (R74). A command's meaning is taken when STATUS.HALT is 0 and its word has been decoded
(R70, R269); Machine/Interface.lean makes both checks. -/

namespace Sys2Proof.Machine

def exec (i : Instr) (s : State) : Host.Outcome State Fault Refusal :=
  match i with
  | .nop => Sys2Proof.Machine.execNop s
  | .ckClr => Sys2Proof.Machine.execCkClr s
  | .ckAdd => Sys2Proof.Machine.execCkAdd s
  | .ckGet => Sys2Proof.Machine.execCkGet s
  | .ckSum => Sys2Proof.Machine.execCkSum s
  | .encIp => Sys2Proof.Machine.execEncIp s
  | .encIcmp => Sys2Proof.Machine.execEncIcmp s
  | .encUdp => Sys2Proof.Machine.execEncUdp s
  | .encPsh => Sys2Proof.Machine.execEncPsh s
  | .encTcp => Sys2Proof.Machine.execEncTcp s
  | .decIp => Sys2Proof.Machine.execDecIp s
  | .decIcmp => Sys2Proof.Machine.execDecIcmp s
  | .decUdp => Sys2Proof.Machine.execDecUdp s
  | .decPsh => Sys2Proof.Machine.execDecPsh s
  | .decTcp => Sys2Proof.Machine.execDecTcp s
  | .finIp => Sys2Proof.Machine.execFinIp s
  | .finIcmp => Sys2Proof.Machine.execFinIcmp s
  | .bldIp => Sys2Proof.Machine.execBldIp s
  | .bldIcmp => Sys2Proof.Machine.execBldIcmp s
  | .udpPkt => Sys2Proof.Machine.execUdpPkt s
  | .bldPsh => Sys2Proof.Machine.execBldPsh s
  | .bldTcp => Sys2Proof.Machine.execBldTcp s

end Sys2Proof.Machine
end

