-- ==== Sys2Proof/Machine/Registers.lean ====
section
/-! DEFINITION. The register space (R36): which registers there are, their offsets, access rights and widths, and what a host
read gives and a host write stores (R30 to R36, R52). Every register is read and written as a whole 32-bit number. -/

namespace Sys2Proof.Machine

/-! ### The registers, by name -/

/-- The argument registers (R22). -/
inductive ArgReg where
  | a0 | a1 | a2 | a3 | a4 | a5
  deriving DecidableEq, Repr

/-- The registers of bank IP (R25). -/
inductive IpReg where
  | vihl | tos | tlen | id | frag | ttl | proto | csum | src | dst
  deriving DecidableEq, Repr

/-- The registers of bank ICMP (R26). -/
inductive IcmpReg where
  | type | code | csum | id | seq
  deriving DecidableEq, Repr

/-- The registers of bank UDP (R27). -/
inductive UdpReg where
  | sport | dport | len | csum
  deriving DecidableEq, Repr

/-- The registers of bank PSH (R28). -/
inductive PshReg where
  | src | dst | zero | proto | len
  deriving DecidableEq, Repr

/-- The registers of bank TCP, the option store as the ten words OPTW0..OPTW9 (R29). -/
inductive TcpReg where
  | sport | dport | seq | ack | off | flags | win | csum | urg | optLen | daddr | dlen
  | optw (k : Fin 10)
  deriving DecidableEq, Repr

/-- The registers the host reads and writes (RW of R36). -/
inductive RwReg where
  | arg (r : ArgReg)
  | ip (r : IpReg)
  | icmp (r : IcmpReg)
  | udp (r : UdpReg)
  | psh (r : PshReg)
  | tcp (r : TcpReg)
  deriving DecidableEq, Repr

/-- The registers the host only reads (RO of R36). -/
inductive RoReg where
  | status | res | olen | ckst
  deriving DecidableEq, Repr

/-- The registers of the register space: CMD, whose write executes a command, the RO and the RW registers (R36). -/
inductive Reg where
  | cmd
  | ro (r : RoReg)
  | rw (r : RwReg)
  deriving DecidableEq, Repr

/-! ### The map (R36) -/

def ArgReg.offset : ArgReg → Nat
  | .a0 => 0x020 | .a1 => 0x024 | .a2 => 0x028 | .a3 => 0x02C | .a4 => 0x030 | .a5 => 0x034

def IpReg.offset : IpReg → Nat
  | .vihl => 0x100 | .tos => 0x104 | .tlen => 0x108 | .id => 0x10C | .frag => 0x110
  | .ttl => 0x114 | .proto => 0x118 | .csum => 0x11C | .src => 0x120 | .dst => 0x124

def IcmpReg.offset : IcmpReg → Nat
  | .type => 0x140 | .code => 0x144 | .csum => 0x148 | .id => 0x14C | .seq => 0x150

def UdpReg.offset : UdpReg → Nat
  | .sport => 0x160 | .dport => 0x164 | .len => 0x168 | .csum => 0x16C

def PshReg.offset : PshReg → Nat
  | .src => 0x180 | .dst => 0x184 | .zero => 0x188 | .proto => 0x18C | .len => 0x190

def TcpReg.offset : TcpReg → Nat
  | .sport => 0x1A0 | .dport => 0x1A4 | .seq => 0x1A8 | .ack => 0x1AC | .off => 0x1B0 | .flags => 0x1B4
  | .win => 0x1B8 | .csum => 0x1BC | .urg => 0x1C0 | .optLen => 0x1C4 | .daddr => 0x1C8 | .dlen => 0x1CC
  | .optw k => 0x1D0 + 4 * k.val

def RwReg.offset : RwReg → Nat
  | .arg r => r.offset
  | .ip r => r.offset
  | .icmp r => r.offset
  | .udp r => r.offset
  | .psh r => r.offset
  | .tcp r => r.offset

def RoReg.offset : RoReg → Nat
  | .status => 0x004 | .res => 0x008 | .olen => 0x00C | .ckst => 0x010

def Reg.offset : Reg → Nat
  | .cmd => 0x000
  | .ro r => r.offset
  | .rw r => r.offset

/-- The registers of the TCP bank; they exist only with the TCP unit (R29, R36). -/
def tcpRegs : List Reg :=
  [.rw (.tcp .sport), .rw (.tcp .dport), .rw (.tcp .seq), .rw (.tcp .ack), .rw (.tcp .off), .rw (.tcp .flags),
   .rw (.tcp .win), .rw (.tcp .csum), .rw (.tcp .urg), .rw (.tcp .optLen), .rw (.tcp .daddr), .rw (.tcp .dlen)] ++
  [.rw (.tcp (.optw 0)), .rw (.tcp (.optw 1)), .rw (.tcp (.optw 2)), .rw (.tcp (.optw 3)), .rw (.tcp (.optw 4)),
   .rw (.tcp (.optw 5)), .rw (.tcp (.optw 6)), .rw (.tcp (.optw 7)), .rw (.tcp (.optw 8)), .rw (.tcp (.optw 9))]

/-- The registers every instance has. -/
def baseRegs : List Reg :=
  [.cmd, .ro .status, .ro .res, .ro .olen, .ro .ckst,
   .rw (.arg .a0), .rw (.arg .a1), .rw (.arg .a2), .rw (.arg .a3), .rw (.arg .a4), .rw (.arg .a5)] ++
  [.rw (.ip .vihl), .rw (.ip .tos), .rw (.ip .tlen), .rw (.ip .id), .rw (.ip .frag), .rw (.ip .ttl), .rw (.ip .proto),
   .rw (.ip .csum), .rw (.ip .src), .rw (.ip .dst)] ++
  [.rw (.icmp .type), .rw (.icmp .code), .rw (.icmp .csum), .rw (.icmp .id), .rw (.icmp .seq),
   .rw (.udp .sport), .rw (.udp .dport), .rw (.udp .len), .rw (.udp .csum)] ++
  [.rw (.psh .src), .rw (.psh .dst), .rw (.psh .zero), .rw (.psh .proto), .rw (.psh .len)]

/-- The registers of an instance. -/
def mappedRegs (hasTcp : Bool) : List Reg := baseRegs ++ (if hasTcp then tcpRegs else [])

/-- The register at a byte offset; none where the offset is unmapped (R36). -/
def regAt (hasTcp : Bool) (offset : Nat) : Option Reg := (mappedRegs hasTcp).find? fun r => r.offset == offset

/-! ### What a read gives: the field, zero-extended (R30) -/

def ArgReg.read (a : Args) : ArgReg → Word
  | .a0 => a.a0 | .a1 => a.a1 | .a2 => a.a2 | .a3 => a.a3 | .a4 => a.a4 | .a5 => a.a5

def IpReg.read (h : IpHeader) : IpReg → Word
  | .vihl => h.vihl.setWidth 32
  | .tos => h.tos.setWidth 32
  | .tlen => h.tlen.setWidth 32
  | .id => h.id.setWidth 32
  | .frag => h.frag.setWidth 32
  | .ttl => h.ttl.setWidth 32
  | .proto => h.proto.setWidth 32
  | .csum => h.csum.setWidth 32
  | .src => h.src
  | .dst => h.dst

def IcmpReg.read (h : IcmpHeader) : IcmpReg → Word
  | .type => h.type.setWidth 32
  | .code => h.code.setWidth 32
  | .csum => h.csum.setWidth 32
  | .id => h.id.setWidth 32
  | .seq => h.seq.setWidth 32

def UdpReg.read (h : UdpHeader) : UdpReg → Word
  | .sport => h.sport.setWidth 32
  | .dport => h.dport.setWidth 32
  | .len => h.len.setWidth 32
  | .csum => h.csum.setWidth 32

def PshReg.read (h : PshHeader) : PshReg → Word
  | .src => h.src
  | .dst => h.dst
  | .zero => h.zero.setWidth 32
  | .proto => h.proto.setWidth 32
  | .len => h.len.setWidth 32

/-- OPTWk = u32be(OPT[4k], OPT[4k+1], OPT[4k+2], OPT[4k+3]) (R29, R52). -/
def optWord (opt : Vector Byte 40) (k : Fin 10) : Word :=
  u32be (opt[4 * k.val]'(by omega)) (opt[4 * k.val + 1]'(by omega)) (opt[4 * k.val + 2]'(by omega))
    (opt[4 * k.val + 3]'(by omega))

def TcpReg.read (t : TcpBank) : TcpReg → Word
  | .sport => t.hdr.sport.setWidth 32
  | .dport => t.hdr.dport.setWidth 32
  | .seq => t.hdr.seq
  | .ack => t.hdr.ack
  | .off => t.hdr.off.setWidth 32
  | .flags => t.hdr.flags.setWidth 32
  | .win => t.hdr.win.setWidth 32
  | .csum => t.hdr.csum.setWidth 32
  | .urg => t.hdr.urg.setWidth 32
  | .optLen => t.optLen.setWidth 32
  | .daddr => t.daddr
  | .dlen => t.dlen
  | .optw k => optWord t.opt k

def RwReg.read (s : State) : RwReg → Word
  | .arg r => r.read s.args
  | .ip r => r.read s.ip
  | .icmp r => r.read s.icmp
  | .udp r => r.read s.udp
  | .psh r => r.read s.psh
  | .tcp r => r.read s.tcp

/-- STATUS, RES (bits 31:16 zero), OLEN and CKST (R32 to R35). -/
def RoReg.read (s : State) : RoReg → Word
  | .status => s.status.word
  | .res => s.res.setWidth 32
  | .olen => s.olen
  | .ckst => s.csu.word

/-- What the host reads at a register; CMD reads as the last word written to it (R31). -/
def Reg.read (s : State) : Reg → Word
  | .cmd => s.cmd
  | .ro r => r.read s
  | .rw r => r.read s

/-! ### What a write stores: the low bits that fit the field (R30) -/

def ArgReg.write (a : Args) (v : Word) : ArgReg → Args
  | .a0 => { a with a0 := v }
  | .a1 => { a with a1 := v }
  | .a2 => { a with a2 := v }
  | .a3 => { a with a3 := v }
  | .a4 => { a with a4 := v }
  | .a5 => { a with a5 := v }

def IpReg.write (h : IpHeader) (v : Word) : IpReg → IpHeader
  | .vihl => { h with vihl := v.setWidth 8 }
  | .tos => { h with tos := v.setWidth 8 }
  | .tlen => { h with tlen := v.setWidth 16 }
  | .id => { h with id := v.setWidth 16 }
  | .frag => { h with frag := v.setWidth 16 }
  | .ttl => { h with ttl := v.setWidth 8 }
  | .proto => { h with proto := v.setWidth 8 }
  | .csum => { h with csum := v.setWidth 16 }
  | .src => { h with src := v }
  | .dst => { h with dst := v }

def IcmpReg.write (h : IcmpHeader) (v : Word) : IcmpReg → IcmpHeader
  | .type => { h with type := v.setWidth 8 }
  | .code => { h with code := v.setWidth 8 }
  | .csum => { h with csum := v.setWidth 16 }
  | .id => { h with id := v.setWidth 16 }
  | .seq => { h with seq := v.setWidth 16 }

def UdpReg.write (h : UdpHeader) (v : Word) : UdpReg → UdpHeader
  | .sport => { h with sport := v.setWidth 16 }
  | .dport => { h with dport := v.setWidth 16 }
  | .len => { h with len := v.setWidth 16 }
  | .csum => { h with csum := v.setWidth 16 }

def PshReg.write (h : PshHeader) (v : Word) : PshReg → PshHeader
  | .src => { h with src := v }
  | .dst => { h with dst := v }
  | .zero => { h with zero := v.setWidth 8 }
  | .proto => { h with proto := v.setWidth 8 }
  | .len => { h with len := v.setWidth 16 }

/-- Writing OPTWk stores its four bytes, the most significant at OPT[4k] (R29, R52). -/
def putOptWord (opt : Vector Byte 40) (k : Fin 10) (v : Word) : Vector Byte 40 :=
  Vector.ofFn fun i => if i.val / 4 = k.val then byteAt (be32 v) (i.val % 4) else opt[i.val]

def TcpReg.write (t : TcpBank) (v : Word) : TcpReg → TcpBank
  | .sport => { t with hdr := { t.hdr with sport := v.setWidth 16 } }
  | .dport => { t with hdr := { t.hdr with dport := v.setWidth 16 } }
  | .seq => { t with hdr := { t.hdr with seq := v } }
  | .ack => { t with hdr := { t.hdr with ack := v } }
  | .off => { t with hdr := { t.hdr with off := v.setWidth 8 } }
  | .flags => { t with hdr := { t.hdr with flags := v.setWidth 8 } }
  | .win => { t with hdr := { t.hdr with win := v.setWidth 16 } }
  | .csum => { t with hdr := { t.hdr with csum := v.setWidth 16 } }
  | .urg => { t with hdr := { t.hdr with urg := v.setWidth 16 } }
  | .optLen => { t with optLen := v.setWidth 6 }
  | .daddr => { t with daddr := v }
  | .dlen => { t with dlen := v }
  | .optw k => { t with opt := putOptWord t.opt k v }

/-- A host write to an RW register changes that register only (R30, R59). -/
def RwReg.write (s : State) (v : Word) : RwReg → State
  | .arg r => s.setArgs (r.write s.args v)
  | .ip r => s.setIp (r.write s.ip v)
  | .icmp r => s.setIcmp (r.write s.icmp v)
  | .udp r => s.setUdp (r.write s.udp v)
  | .psh r => s.setPsh (r.write s.psh v)
  | .tcp r => s.setTcp (r.write s.tcp v)

/-! ### Widths (R22, R25 to R29) -/

def IpReg.width : IpReg → Nat
  | .vihl => 8 | .tos => 8 | .tlen => 16 | .id => 16 | .frag => 16
  | .ttl => 8 | .proto => 8 | .csum => 16 | .src => 32 | .dst => 32

def IcmpReg.width : IcmpReg → Nat
  | .type => 8 | .code => 8 | .csum => 16 | .id => 16 | .seq => 16

def UdpReg.width : UdpReg → Nat
  | .sport => 16 | .dport => 16 | .len => 16 | .csum => 16

def PshReg.width : PshReg → Nat
  | .src => 32 | .dst => 32 | .zero => 8 | .proto => 8 | .len => 16

def TcpReg.width : TcpReg → Nat
  | .sport => 16 | .dport => 16 | .seq => 32 | .ack => 32 | .off => 8 | .flags => 8
  | .win => 16 | .csum => 16 | .urg => 16 | .optLen => 6 | .daddr => 32 | .dlen => 32
  | .optw _ => 32

/-- The bits a host-writable register has. -/
def RwReg.width : RwReg → Nat
  | .arg _ => 32
  | .ip r => r.width
  | .icmp r => r.width
  | .udp r => r.width
  | .psh r => r.width
  | .tcp r => r.width

end Sys2Proof.Machine
end

