-- ==== Sys2Proof/Machine/Interface.lean ====
section
/-! DEFINITION. The host interface (R16, R60, R70, R302): what one transaction does, the command issue inside a CMD write, and
reset (R290). -/

namespace Sys2Proof.Machine

/-- A host write to CMD (R31, R70): the word becomes CMD's read value; unless the block is halted (R268) it is decoded and
executed, an illegal word raising IllegalCommand (R75, R263). -/
def issueCommand (w : Word) (s : State) : Host.Outcome State Fault Refusal :=
  if s.status.halt then .next (s.setCmd w)
  else
    match decode s.params.hasTcp w with
    | .ok i => exec i (s.setCmd w)
    | .error _ => .next ((s.setCmd w).raise .illegalCommand)

/-- The state after reset is asserted (R290): every register at its reset value, PBUF unspecified anew; the parameters stay
(R38), and so does the host's side. -/
def State.resetBlock (s : State) : State :=
  { State.reset with params := s.params, epoch := s.epoch + 1, script := s.script, replies := s.replies }

/-- A host write to the register space (R30, R31, R36; K8 refuses the rest). -/
def regWrite (offset : Nat) (v : Word) (s : State) : Host.Outcome State Fault Refusal :=
  match regAt s.params.hasTcp offset with
  | none => .refused (.unmappedOffset offset)
  | some .cmd => issueCommand v s
  | some (.ro _) => .refused (.readOnlyRegister offset)
  | some (.rw r) => .next (r.write s v)

/-- A host read of the register space: no side effect (R30, R59). -/
def regRead (offset : Nat) (s : State) : Host.Outcome State Fault Refusal :=
  match regAt s.params.hasTcp offset with
  | none => .refused (.unmappedOffset offset)
  | some r => .next (s.addReply (.word (r.read s)))

/-- A host write of one PBUF byte (R37, R56, R59). -/
def bufWrite (a : Word) (b : Byte) (s : State) : Host.Outcome State Fault Refusal :=
  if a.toNat < s.params.pbufSize then .next (s.memWrite a.toNat [b]) else .refused (.bufferAddress a)

/-- A host read of one PBUF byte: no side effect (R37, R56, R59). -/
def bufRead (a : Word) (s : State) : Host.Outcome State Fault Refusal :=
  if a.toNat < s.params.pbufSize then .next (s.addReply (.byte (s.pbufByte a.toNat))) else .refused (.bufferAddress a)

/-- One host transaction, completed before the next starts (R60, R62). -/
def transact (t : Transaction) (s : State) : Host.Outcome State Fault Refusal :=
  match t with
  | .regWrite offset v => regWrite offset v s
  | .regRead offset => regRead offset s
  | .bufWrite a b => bufWrite a b s
  | .bufRead a => bufRead a s
  | .reset => .next s.resetBlock

/-- The host makes the next transaction of its script; with none left the run has ended (R303). -/
def advance (s : State) : Host.Outcome State Fault Refusal :=
  match s.script with
  | [] => .fault .scriptEnded
  | t :: rest => transact t (s.setScript rest)

/-- The state in which the host's next transaction writes this word to CMD. -/
def State.withCommand (s : State) (w : Word) : State :=
  s.setScript (.regWrite Reg.cmd.offset w :: s.script)

end Sys2Proof.Machine
end

