-- ==== Sys2Proof/Machine/Step.lean ====
section
/-! DEFINITION. One step of the machine: one host transaction (R60). A command executes inside the CMD write that issues it
(R70); nothing is fetched (R24, R66). -/

namespace Sys2Proof.Machine

/-- One step: the host's next transaction, with everything it causes. -/
def step (s : State) : Host.Outcome State Fault Refusal := advance s

/-- The state whose very next step writes this command word to CMD. The block fetches nothing (R24), so the instruction is
placed where it comes from: at the head of the host's script. A command is one 32-bit word (R70). Log entry 14. -/
def State.withFetchWord (s : State) (nbits w : Nat) : State := s.withCommand (BitVec.ofNat 32 (w % 2 ^ nbits))

end Sys2Proof.Machine
end

