-- ==== Sys2Proof/Safety.lean ====
section
/-! DEFINITION. What counts as a clean run (R303), and the invariant of the block's states. -/

namespace Sys2Proof.Machine

/-- A run is clean when no command of it recorded an error: STICKY = 0 and HALT = 0 at its end (R303). -/
def State.clean (s : State) : Bool := !s.status.sticky && !s.status.halt

/-- HOLD is zero when no byte waits (R21). -/
abbrev Csu.wf (c : Csu) : Prop := c.odd = false → c.hold = 0x00#8

/-- STATUS as the error rules leave it: an error is also in STICKY (R266), and HALT is 1 exactly when the latest error is a
ChecksumConsistencyViolation (R268: while halted, STATUS does not change). -/
abbrev Status.wf (st : Status) : Prop :=
  (st.err ≠ none → st.sticky = true) ∧ (st.halt = true ↔ st.err = some .checksumConsistencyViolation)

/-- The invariant: PBUF's cells in canonical form inside the buffer (R37), a waiting byte only when ODD (R21), STATUS
consistent (R266, R268), PBUF_SIZE in its range (D8). -/
abbrev State.Inv (s : State) : Prop :=
  s.mem.wf s.params.pbufSize = true ∧ s.csu.wf ∧ s.status.wf ∧ s.params.valid

/-- The block is not halted: what R107 says of every run from reset. -/
abbrev State.running (s : State) : Prop := s.status.halt = false

end Sys2Proof.Machine
end

