-- ==== Sys2Proof/Certificates/Slice0/Obligations.lean ====
section
/-! DEFINITION. The statements about CKSUM-CORE, from the numbered rules of its spec. The definitions of the first part are the
words the statements share; each statement is a def Obligations.<Name>. -/

namespace Sys2Proof.Claims

open Sys2Proof.Machine

/-! ### Shared words -/

/-- STATUS after a command without error: ERR 0, the rest as before (R266). -/
def okStatus (s : State) : Status := { err := none, sticky := s.status.sticky, halt := s.status.halt }

/-- STATUS after error e other than ChecksumConsistencyViolation (R266). -/
def errStatus (s : State) (e : CmdError) : Status := { err := some e, sticky := true, halt := s.status.halt }

/-- The command ends with error e and changes nothing but STATUS (R266). -/
def FailsWith (i : Instr) (s : State) (e : CmdError) : Prop := exec i s = .next { s with status := errStatus s e }

/-- Every byte of PBUF is unchanged. -/
def SameBytes (s t : State) : Prop := ∀ x, t.pbufByte x = s.pbufByte x

/-- Every byte of PBUF outside the n bytes at address a is unchanged. -/
def SameBytesOutside (s t : State) (a n : Nat) : Prop := ∀ x, x < a ∨ a + n ≤ x → t.pbufByte x = s.pbufByte x

/-- The host's next transaction is a write of w to CMD, at offset 0x000 (R36, R70). -/
def IssuesNext (s : State) (w : Word) (rest : List Transaction) : Prop := s.script = .regWrite 0x000 w :: rest

/-- The command words of R74, second column. -/
def tableWord : Instr → Word
  | .nop => 0x00000000#32
  | .ckClr => 0x00000010#32
  | .ckAdd => 0x00000011#32
  | .ckGet => 0x00000012#32
  | .ckSum => 0x00000013#32
  | .encIp => 0x00000020#32
  | .encIcmp => 0x00000120#32
  | .encUdp => 0x00000220#32
  | .encPsh => 0x00000320#32
  | .encTcp => 0x00000420#32
  | .decIp => 0x00000021#32
  | .decIcmp => 0x00000121#32
  | .decUdp => 0x00000221#32
  | .decPsh => 0x00000321#32
  | .decTcp => 0x00000421#32
  | .finIp => 0x00000022#32
  | .finIcmp => 0x00000122#32
  | .bldIp => 0x00000030#32
  | .bldIcmp => 0x00000130#32
  | .udpPkt => 0x00000230#32
  | .bldPsh => 0x00000330#32
  | .bldTcp => 0x00000430#32

/-- The command exists on the instance: the three TCP commands need HAS_TCP (R75). -/
def CommandPresent (hasTcp : Bool) (i : Instr) : Prop := hasTcp = true ∨ (i ≠ .encTcp ∧ i ≠ .decTcp ∧ i ≠ .bldTcp)

/-- The table of R36, offset and register. -/
def registerMap : List (Nat × Reg) :=
  [(0x000, .cmd), (0x004, .ro .status), (0x008, .ro .res), (0x00C, .ro .olen), (0x010, .ro .ckst),
   (0x020, .rw (.arg .a0)), (0x024, .rw (.arg .a1)), (0x028, .rw (.arg .a2)), (0x02C, .rw (.arg .a3)),
   (0x030, .rw (.arg .a4)), (0x034, .rw (.arg .a5))] ++
  [(0x100, .rw (.ip .vihl)), (0x104, .rw (.ip .tos)), (0x108, .rw (.ip .tlen)), (0x10C, .rw (.ip .id)),
   (0x110, .rw (.ip .frag)), (0x114, .rw (.ip .ttl)), (0x118, .rw (.ip .proto)), (0x11C, .rw (.ip .csum)),
   (0x120, .rw (.ip .src)), (0x124, .rw (.ip .dst)), (0x140, .rw (.icmp .type)), (0x144, .rw (.icmp .code)),
   (0x148, .rw (.icmp .csum)), (0x14C, .rw (.icmp .id)), (0x150, .rw (.icmp .seq))] ++
  [(0x160, .rw (.udp .sport)), (0x164, .rw (.udp .dport)), (0x168, .rw (.udp .len)), (0x16C, .rw (.udp .csum)),
   (0x180, .rw (.psh .src)), (0x184, .rw (.psh .dst)), (0x188, .rw (.psh .zero)), (0x18C, .rw (.psh .proto)),
   (0x190, .rw (.psh .len)), (0x1A0, .rw (.tcp .sport)), (0x1A4, .rw (.tcp .dport)), (0x1A8, .rw (.tcp .seq)),
   (0x1AC, .rw (.tcp .ack)), (0x1B0, .rw (.tcp .off)), (0x1B4, .rw (.tcp .flags)), (0x1B8, .rw (.tcp .win)),
   (0x1BC, .rw (.tcp .csum)), (0x1C0, .rw (.tcp .urg)), (0x1C4, .rw (.tcp .optLen)), (0x1C8, .rw (.tcp .daddr)),
   (0x1CC, .rw (.tcp .dlen))] ++
  (List.finRange 10).map fun k => (0x1D0 + 4 * k.val, .rw (.tcp (.optw k)))

/-- The 16-bit groups of a byte list, the last one padded with a low zero byte when the length is odd (R103). -/
def groups : List Byte → List Half
  | [] => []
  | [b] => [u16be b 0x00#8]
  | b0 :: b1 :: rest => u16be b0 b1 :: groups rest

/-- The sum of the groups as a natural number (R103). -/
def groupSum (bs : List Byte) : Nat := ((groups bs).map BitVec.toNat).sum

/-- The errors each command can raise (R260), ChecksumConsistencyViolation left out: it is never raised (R107). -/
def raises : Instr → List CmdError
  | .nop => []
  | .ckClr => []
  | .ckAdd => [.bufferRange]
  | .ckGet => []
  | .ckSum => [.bufferRange]
  | .encIp => [.bufferRange]
  | .encIcmp => [.bufferRange]
  | .encUdp => [.bufferRange]
  | .encPsh => [.bufferRange]
  | .encTcp => [.bufferRange, .tcpFormat]
  | .decIp => [.lengthMismatch, .bufferRange]
  | .decIcmp => [.lengthMismatch, .bufferRange]
  | .decUdp => [.lengthMismatch, .bufferRange]
  | .decPsh => [.lengthMismatch, .bufferRange]
  | .decTcp => [.lengthMismatch, .bufferRange, .tcpFormat]
  | .finIp => []
  | .finIcmp => []
  | .bldIp => [.lengthOverflow]
  | .bldIcmp => []
  | .udpPkt => [.bufferRange, .lengthOverflow]
  | .bldPsh => []
  | .bldTcp => []

/-- ENC of a fixed-size type whose bank encodes to bs, by R136: its word selects it; in range, it completes with bs at a0 and OLEN the number of
bytes; out of range, BufferRange. -/
def EncShape (i : Instr) (bs : State → List Byte) (n : Nat) : Prop :=
  ∀ s : State, decode s.params.hasTcp (tableWord i) = .ok i ∧
    (s.args.a0.toNat + n ≤ s.params.pbufSize →
      ∃ t, exec i s = .next t ∧ t.memRead s.args.a0.toNat n = bs s ∧ t.olen.toNat = n ∧ t.status = okStatus s ∧
        SameBytesOutside s t s.args.a0.toNat n ∧
        t = { s with mem := t.mem, olen := t.olen, status := t.status }) ∧
    (s.params.pbufSize < s.args.a0.toNat + n → FailsWith i s .bufferRange)

/-- DEC of a fixed-size type of n bytes, by R137: its word selects it; the length is checked first, then the range; else the bank is decoded. -/
def DecShape (i : Instr) (n : Nat) (result : State → List Byte → State) : Prop :=
  ∀ s : State, decode s.params.hasTcp (tableWord i) = .ok i ∧
    (s.args.a1.toNat = n → s.args.a0.toNat + n ≤ s.params.pbufSize →
      exec i s = .next { result s (s.memRead s.args.a0.toNat n) with status := okStatus s }) ∧
    (s.args.a1.toNat ≠ n → FailsWith i s .lengthMismatch) ∧
    (s.args.a1.toNat = n → s.params.pbufSize < s.args.a0.toNat + n → FailsWith i s .bufferRange)

/-- The data offset in bytes of the TCP packet at a0: four times the high nibble of its byte 12 (R223). -/
def tcpOffAt (s : State) : Nat := 4 * ((s.pbufByte (s.args.a0.toNat + 12)).toNat / 16)

/-- The bank's invariant that ENC.TCP checks (R222). -/
def TcpBankOk (t : TcpBank) : Prop :=
  t.optLen.toNat ≤ 40 ∧ t.optLen.toNat % 4 = 0 ∧ t.hdr.off.toNat / 16 * 4 = 20 + t.optLen.toNat

end Sys2Proof.Claims

open Sys2Proof Sys2Proof.Machine Sys2Proof.Claims

/-! ### Encoding -/

/-- R74 in a few words, written out from OPC and HT, and some words that are no command. -/
def Obligations.CommandWordSamplesDecode : Prop :=
  decode true 0x00000000#32 = .ok .nop ∧ decode true 0x00000013#32 = .ok .ckSum ∧
  decode true 0x00000321#32 = .ok .decPsh ∧ decode true 0x00000122#32 = .ok .finIcmp ∧
  decode true 0x00000230#32 = .ok .udpPkt ∧ decode true 0x00000430#32 = .ok .bldTcp ∧
  (decode false 0x00000430#32).toOption = none ∧ (decode true 0x00000222#32).toOption = none ∧
  (decode true 0x00000110#32).toOption = none ∧ (decode true 0x80000010#32).toOption = none

/-- R74, R75: a word is decoded as a command exactly when it is that command's word in the table, and, for the TCP commands,
the unit exists. -/
def Obligations.DecodeSelectsExactlyTheTableWord : Prop :=
  ∀ (hasTcp : Bool) (w : Word) (i : Instr), decode hasTcp w = .ok i ↔ w = tableWord i ∧ CommandPresent hasTcp i

/-- The encoder and the decoder are inverse on the well-formed commands, in both directions (R71 to R75). -/
def Obligations.DecodeAndEncodeAgree : Prop :=
  (∀ (hasTcp : Bool) (i : Instr), i.wellFormed hasTcp = true → decode hasTcp (encode i) = .ok i) ∧
  (∀ (hasTcp : Bool) (w : Word) (i : Instr), decode hasTcp w = .ok i → encode i = w ∧ i.wellFormed hasTcp = true)

/-! ### Steps, reset and the host interface -/

/-- R70: a step that writes a command word to CMD, the block not halted, is the meaning of the decoded command on the state
with the transaction taken off the script and the word in CMD. -/
def Obligations.StepRunsTheDecodedCommand : Prop :=
  (∀ (s : State) (w : Word) (rest : List Transaction) (i : Instr), IssuesNext s w rest → s.status.halt = false →
    decode s.params.hasTcp w = .ok i → step s = exec i { s with script := rest, cmd := w }) ∧
  (∀ (s : State) (w : Word) (i : Instr), s.status.halt = false → decode s.params.hasTcp w = .ok i →
    step (s.withFetchWord 32 w.toNat) = exec i { s with cmd := w })

/-- R263: a word that is no command of the instance raises IllegalCommand; the word stays readable in CMD. -/
def Obligations.IllegalWordRaisesIllegalCommand : Prop :=
  ∀ (s : State) (w : Word) (rest : List Transaction), IssuesNext s w rest → s.status.halt = false →
    (∀ i, CommandPresent s.params.hasTcp i → w ≠ tableWord i) →
    step s = .next { s with script := rest, cmd := w, status := errStatus s .illegalCommand }

/-- R268: error entry of ChecksumConsistencyViolation halts; while halted a CMD write changes only CMD's read value, and host
reads and writes still work. -/
def Obligations.HaltedBlockIgnoresCommands : Prop :=
  (∀ s : State, s.raise .checksumConsistencyViolation =
    { s with status := { err := some .checksumConsistencyViolation, sticky := true, halt := true } }) ∧
  (∀ (s : State) (w : Word) (rest : List Transaction), s.status.halt = true → IssuesNext s w rest →
    step s = .next { s with script := rest, cmd := w }) ∧
  (∀ (s : State) (r : Reg) (rest : List Transaction), s.status.halt = true →
    regAt s.params.hasTcp r.offset = some r → s.script = .regRead r.offset :: rest →
    step s = .next { s with script := rest, replies := s.replies ++ [.word (r.read s)] }) ∧
  (∀ (s : State) (r : RwReg) (v : Word) (rest : List Transaction), s.status.halt = true →
    regAt s.params.hasTcp r.offset = some (.rw r) → s.script = .regWrite r.offset v :: rest →
    ∃ t, step s = .next t ∧ (r.read t).toNat = v.toNat % 2 ^ r.width ∧ t.status = s.status) ∧
  (∀ (s : State) (a : Word) (b : Byte) (rest : List Transaction), s.status.halt = true →
    a.toNat < s.params.pbufSize → s.script = .bufWrite a b :: rest →
    ∃ t, step s = .next t ∧ t.pbufByte a.toNat = b ∧ t.status = s.status)

/-- R40, R290: reset puts every register at its reset value; the parameters stay. The rest is the model's choice: that no byte of
PBUF is listed means unspecified bytes by log entries 5 and 6, and that the host's side stays is log entries 1 and 2. -/
def Obligations.ResetClearsEveryRegister : Prop :=
  ∀ (s : State) (rest : List Transaction), s.script = .reset :: rest →
    ∃ t, step s = .next t ∧
      t.csu = { acc := 0, odd := false, hold := 0 } ∧
      t.args = { a0 := 0, a1 := 0, a2 := 0, a3 := 0, a4 := 0, a5 := 0 } ∧
      (∀ r : RwReg, r.read t = 0) ∧ (∀ r : RoReg, r.read t = 0) ∧ t.cmd = 0 ∧
      t.status = { err := none, sticky := false, halt := false } ∧ t.res = 0 ∧ t.olen = 0 ∧
      t.tcp.opt.toList = List.replicate 40 0 ∧ t.mem = [] ∧ t.params = s.params ∧ t.script = rest ∧ t.replies = s.replies

/-- R40 at State.reset, and that the invariant of StepKeepsTheInvariant holds there. The last two clauses are the model's choice:
that State.reset is the instance with R12's default PBUF_SIZE and HAS_TCP is log entry 4. -/
def Obligations.ResetStateMeetsTheInvariant : Prop :=
  State.reset.Inv ∧ State.reset.running ∧ State.reset.clean = true ∧
  (∀ r : RwReg, r.read State.reset = 0) ∧ (∀ r : RoReg, r.read State.reset = 0) ∧ Reg.read State.reset .cmd = 0 ∧
  State.reset.params.pbufSize = 131072 ∧ State.reset.params.hasTcp = true

/-- The invariant of the block, kept by every step from every state that has it: PBUF's cells in canonical form inside the
buffer, HOLD zero unless a byte waits (R21), STATUS consistent (R266, R268), PBUF_SIZE in its range (D8). -/
def Obligations.StepKeepsTheInvariant : Prop := ∀ s t : State, s.Inv → step s = .next t → t.Inv

/-- R107, R262: no step of any state halts the block. -/
def Obligations.NoStepHaltsTheBlock : Prop := ∀ s t : State, s.running → step s = .next t → t.running

/-- R32: STICKY and HALT are never cleared except by reset. -/
def Obligations.StickyAndHaltClearOnlyOnReset : Prop :=
  ∀ s t : State, step s = .next t → s.script.head? ≠ some .reset →
    (s.status.sticky = true → t.status.sticky = true) ∧ (s.status.halt = true → t.status.halt = true)

/-- R38, R60: a step makes exactly the next transaction and changes no parameter; only reset changes which free content the
unwritten bytes have. -/
def Obligations.StepTakesOneTransactionAndKeepsParameters : Prop :=
  ∀ s t : State, step s = .next t →
    t.params = s.params ∧ (∃ x, s.script = x :: t.script) ∧ (s.script.head? ≠ some .reset → t.epoch = s.epoch)

/-- R30, R59: a host write stores the low bits that fit the register, and every other register and PBUF stay. -/
def Obligations.HostWriteStoresLowBitsOfOneRegister : Prop :=
  ∀ (s : State) (r : RwReg) (v : Word) (rest : List Transaction),
    regAt s.params.hasTcp r.offset = some (.rw r) → s.script = .regWrite r.offset v :: rest →
    ∃ t, step s = .next t ∧ (r.read t).toNat = v.toNat % 2 ^ r.width ∧
      (∀ q : Reg, q ≠ .rw r → q.read t = q.read s) ∧ SameBytes s t ∧
      t.params = s.params ∧ t.script = rest ∧ t.replies = s.replies

/-- R30, R59: a host read gives the value and has no side effect. -/
def Obligations.HostReadGivesTheValueAndChangesNothing : Prop :=
  (∀ (s : State) (r : Reg) (rest : List Transaction), regAt s.params.hasTcp r.offset = some r →
    s.script = .regRead r.offset :: rest →
    step s = .next { s with script := rest, replies := s.replies ++ [.word (r.read s)] }) ∧
  (∀ (s : State) (a : Word) (rest : List Transaction), a.toNat < s.params.pbufSize → s.script = .bufRead a :: rest →
    step s = .next { s with script := rest, replies := s.replies ++ [.byte (s.pbufByte a.toNat)] })

/-- R37, R59: a host write of a PBUF byte changes that byte only. -/
def Obligations.HostBufferWriteChangesOneByte : Prop :=
  ∀ (s : State) (a : Word) (b : Byte) (rest : List Transaction), a.toNat < s.params.pbufSize →
    s.script = .bufWrite a b :: rest →
    ∃ t, step s = .next t ∧ t.pbufByte a.toNat = b ∧ (∀ x, x ≠ a.toNat → t.pbufByte x = s.pbufByte x) ∧
      t = { s with script := rest, mem := t.mem }

/-- R36: the registers at exactly the offsets of its table, the TCP ones only with the TCP unit; nothing else is mapped. -/
def Obligations.RegisterMapIsExact : Prop :=
  (∀ (hasTcp : Bool) (offset : Nat) (r : Reg), regAt hasTcp offset = some r ↔
    (offset, r) ∈ registerMap ∧ (hasTcp = true ∨ ∀ q : TcpReg, r ≠ .rw (.tcp q))) ∧
  (∀ (hasTcp : Bool) (offset : Nat), offset % 4 ≠ 0 → regAt hasTcp offset = none)

/-- R36, R302, K8: host accesses outside the interface have no step, each by its name; and with no transaction to make there is
no step either (R16, R303). The names are the model's (log entries 1 and 7). -/
def Obligations.AccessOutsideTheInterfaceHasNoStep : Prop :=
  (∀ (s : State) (offset : Nat) (v : Word) (rest : List Transaction), regAt s.params.hasTcp offset = none →
    (s.script = .regWrite offset v :: rest ∨ s.script = .regRead offset :: rest) →
    step s = .refused (.unmappedOffset offset)) ∧
  (∀ (s : State) (r : RoReg) (v : Word) (rest : List Transaction), s.script = .regWrite r.offset v :: rest →
    step s = .refused (.readOnlyRegister r.offset)) ∧
  (∀ (s : State) (a : Word) (b : Byte) (rest : List Transaction), s.params.pbufSize ≤ a.toNat →
    (s.script = .bufWrite a b :: rest ∨ s.script = .bufRead a :: rest) → step s = .refused (.bufferAddress a)) ∧
  (∀ s : State, s.script = [] → step s = .fault .scriptEnded)

/-- R32, R33, R35: the words the host reads at STATUS, RES and CKST, bit by bit. -/
def Obligations.StatusResAndCkstReadAsLaidOut : Prop :=
  ∀ s : State,
    (RoReg.read s .status).toNat =
      (match s.status.err with
        | none => 0
        | some .lengthMismatch => 1
        | some .checksumConsistencyViolation => 2
        | some .illegalCommand => 3
        | some .bufferRange => 4
        | some .lengthOverflow => 5
        | some .tcpFormat => 6)
      + 16 * s.status.sticky.toNat + 32 * s.status.halt.toNat ∧
    (RoReg.read s .res).toNat = s.res.toNat ∧
    (RoReg.read s .ckst).toNat = s.csu.acc.toNat + 2 ^ 16 * s.csu.odd.toNat + 2 ^ 24 * s.csu.hold.toNat

/-! ### Errors and frames -/

/-- R266: a command that raises an error other than ChecksumConsistencyViolation has no effect other than on STATUS; one that
completes without error leaves STICKY and HALT alone. -/
def Obligations.FailedCommandChangesOnlyStatus : Prop :=
  ∀ (i : Instr) (s t : State), exec i s = .next t →
    (∀ e, t.status.err = some e → e ≠ .checksumConsistencyViolation → t = { s with status := errStatus s e }) ∧
    (t.status.err = none → t.status = okStatus s)

/-- R260: every command raises only the errors the table of R260 gives it. -/
def Obligations.CommandsRaiseOnlyTheirErrors : Prop :=
  ∀ (i : Instr) (s t : State) (e : CmdError), exec i s = .next t → t.status.err = some e → e ∈ raises i

/-- R270: re-issuing a failed command with the same operands and state fails the same way. -/
def Obligations.FailedCommandFailsAgain : Prop :=
  ∀ (i : Instr) (s t : State) (e : CmdError), exec i s = .next t → t.status.err = some e → exec i t = .next t

/-- R41, frame of NOP, CK.CLR, CK.ADD, CK.GET, CK.SUM: only the accumulator, RES and STATUS can change, each as its row says;
no byte of PBUF does. -/
def Obligations.FrameOfNopAndChecksumCommands : Prop :=
  ∀ (i : Instr) (s t : State), i ∈ [Instr.nop, .ckClr, .ckAdd, .ckGet, .ckSum] → exec i s = .next t →
    t = { s with csu := t.csu, res := t.res, status := t.status } ∧ SameBytes s t ∧
    (i ∈ [Instr.nop, .ckGet] → t.csu = s.csu) ∧ (i ∈ [Instr.nop, .ckClr, .ckAdd] → t.res = s.res)

/-- R41, frame of DEC.*, FIN.*, BLD.*: only the command's own bank (for FIN, its CSUM) and STATUS can change; no byte of PBUF
does. -/
def Obligations.FrameOfBankWritingCommands : Prop :=
  ∀ (s t : State),
    (∀ i, i ∈ [Instr.decIp, .finIp, .bldIp] → exec i s = .next t →
      t = { s with ip := t.ip, status := t.status } ∧ SameBytes s t) ∧
    (∀ i, i ∈ [Instr.decIcmp, .finIcmp, .bldIcmp] → exec i s = .next t →
      t = { s with icmp := t.icmp, status := t.status } ∧ SameBytes s t) ∧
    (exec .decUdp s = .next t → t = { s with udp := t.udp, status := t.status } ∧ SameBytes s t) ∧
    (∀ i, i ∈ [Instr.decPsh, .bldPsh] → exec i s = .next t →
      t = { s with psh := t.psh, status := t.status } ∧ SameBytes s t) ∧
    (∀ i, i ∈ [Instr.decTcp, .bldTcp] → exec i s = .next t →
      t = { s with tcp := t.tcp, status := t.status } ∧ SameBytes s t) ∧
    (exec .finIp s = .next t → t.ip = { s.ip with csum := t.ip.csum }) ∧
    (exec .finIcmp s = .next t → t.icmp = { s.icmp with csum := t.icmp.csum })

/-- R41, frame of ENC.* and UDP.PKT: only PBUF, OLEN and STATUS can change, and of PBUF only the bytes of the output range:
20, 8, 8, 12, 20 + OPTLEN + DLEN bytes at a0, or 28 + n bytes at a4. -/
def Obligations.FrameOfStoringCommands : Prop :=
  ∀ (s t : State),
    (∀ i, i ∈ [Instr.encIp, .encIcmp, .encUdp, .encPsh, .encTcp, .udpPkt] → exec i s = .next t →
      t = { s with mem := t.mem, olen := t.olen, status := t.status }) ∧
    (exec .encIp s = .next t → SameBytesOutside s t s.args.dstAddr 20) ∧
    (exec .encIcmp s = .next t → SameBytesOutside s t s.args.dstAddr 8) ∧
    (exec .encUdp s = .next t → SameBytesOutside s t s.args.dstAddr 8) ∧
    (exec .encPsh s = .next t → SameBytesOutside s t s.args.dstAddr 12) ∧
    (exec .encTcp s = .next t →
      SameBytesOutside s t s.args.dstAddr (20 + s.tcp.optLen.toNat + s.tcp.dlen.toNat)) ∧
    (exec .udpPkt s = .next t → SameBytesOutside s t s.args.pktOut (28 + s.args.pktPayloadLen))

/-- R77: the upper bits of a register that holds a narrow operand are ignored. -/
def Obligations.NarrowOperandsIgnoreUpperBits : Prop :=
  ∀ (s : State) (a : Args),
    (a.a0.toNat % 2 ^ 16 = s.args.a0.toNat % 2 ^ 16 →
      ∃ t u, exec .bldIcmp s = .next t ∧ exec .bldIcmp { s with args := a } = .next u ∧ u.icmp = t.icmp) ∧
    (a.a0.toNat % 2 ^ 16 = s.args.a0.toNat % 2 ^ 16 →
      ∃ t u, exec .bldPsh s = .next t ∧ exec .bldPsh { s with args := a } = .next u ∧ u.psh = t.psh) ∧
    (a.a0.toNat % 2 ^ 16 = s.args.a0.toNat % 2 ^ 16 → a.a1.toNat % 2 ^ 8 = s.args.a1.toNat % 2 ^ 8 →
      a.a2 = s.args.a2 →
      ∃ t u, exec .bldIp s = .next t ∧ exec .bldIp { s with args := a } = .next u ∧ u.ip = t.ip ∧
        u.status = t.status) ∧
    (a.a5.toNat % 2 ^ 8 = s.args.a5.toNat % 2 ^ 8 → { a with a5 := s.args.a5 } = s.args →
      ∃ t u, exec .bldTcp s = .next t ∧ exec .bldTcp { s with args := a } = .next u ∧ u.tcp = t.tcp)

/-- R41, R196: UDP.PKT reads no bank and no accumulator: what it writes and reports depends on the arguments, the parameters
and PBUF alone. -/
def Obligations.UdpPktReadsNoBank : Prop :=
  ∀ s s' : State, s'.args = s.args → s'.params = s.params → (∀ x, s'.pbufByte x = s.pbufByte x) →
    ∃ t t', exec .udpPkt s = .next t ∧ exec .udpPkt s' = .next t' ∧ t'.status.err = t.status.err ∧
      (t.status.err = none → t'.olen = t.olen) ∧ ∀ x, t'.pbufByte x = t.pbufByte x

/-! ### System and checksum commands -/

/-- R250: NOP changes nothing but STATUS.ERR, which becomes 0. -/
def Obligations.NopOnlyClearsTheError : Prop :=
  ∀ s : State, decode s.params.hasTcp 0x00000000#32 = .ok .nop ∧ exec .nop s = .next { s with status := okStatus s }

/-- R110: CK.CLR. -/
def Obligations.CkClrClearsTheAccumulator : Prop :=
  ∀ s : State, decode s.params.hasTcp 0x00000010#32 = .ok .ckClr ∧
    exec .ckClr s = .next { s with csu := { acc := 0, odd := false, hold := 0 }, status := okStatus s }

/-- R111: CK.ADD absorbs the range into the accumulator, or raises BufferRange; if S is what was absorbed before, S ++ the
range's bytes is what has been absorbed after. -/
def Obligations.CkAddAbsorbsTheRange : Prop :=
  ∀ s : State, decode s.params.hasTcp 0x00000011#32 = .ok .ckAdd ∧
    ((s.args.a1.toNat = 0 ∨ s.args.a0.toNat + s.args.a1.toNat ≤ s.params.pbufSize) →
      ∃ t, exec .ckAdd s = .next t ∧
        t = { s with csu := absorb s.csu (s.memRead s.args.a0.toNat s.args.a1.toNat), status := okStatus s } ∧
        ∀ S, s.csu = absorb Csu.clear S →
          t.csu = absorb Csu.clear (S ++ s.memRead s.args.a0.toNat s.args.a1.toNat)) ∧
    (0 < s.args.a1.toNat → s.params.pbufSize < s.args.a0.toNat + s.args.a1.toNat → FailsWith .ckAdd s .bufferRange)

/-- R112: CK.GET reads out the checksum of everything absorbed and leaves the accumulator. -/
def Obligations.CkGetReadsTheChecksumAbsorbed : Prop :=
  ∀ s : State, decode s.params.hasTcp 0x00000012#32 = .ok .ckGet ∧
    ∃ t, exec .ckGet s = .next t ∧ t = { s with res := ~~~s.csu.final, status := okStatus s } ∧
      ∀ S, s.csu = absorb Csu.clear S → t.res = compute S

/-- R113: CK.SUM; it is exactly CK.CLR, CK.ADD, CK.GET in one command. -/
def Obligations.CkSumGivesTheChecksumOfTheRange : Prop :=
  ∀ s : State, decode s.params.hasTcp 0x00000013#32 = .ok .ckSum ∧
    ((s.args.a1.toNat = 0 ∨ s.args.a0.toNat + s.args.a1.toNat ≤ s.params.pbufSize) →
      ∃ t, exec .ckSum s = .next t ∧
        t = { s with
          csu := absorb Csu.clear (s.memRead s.args.a0.toNat s.args.a1.toNat)
          res := compute (s.memRead s.args.a0.toNat s.args.a1.toNat)
          status := okStatus s } ∧
        t.res = ~~~t.csu.final) ∧
    (0 < s.args.a1.toNat → s.params.pbufSize < s.args.a0.toNat + s.args.a1.toNat → FailsWith .ckSum s .bufferRange) ∧
    ((s.args.a1.toNat = 0 ∨ s.args.a0.toNat + s.args.a1.toNat ≤ s.params.pbufSize) →
      ∃ c a g, exec .ckClr s = .next c ∧ exec .ckAdd c = .next a ∧ exec .ckGet a = .next g ∧ exec .ckSum s = .next g)

/-- R21: the accumulator is that of the stream absorbed since the last clear, and every command keeps it so. -/
def Obligations.AccumulatorTracksTheAbsorbedStream : Prop :=
  (∀ S : List Byte,
    (absorb Csu.clear S).acc = fold (S.take (2 * (S.length / 2))) ∧
    (absorb Csu.clear S).odd = (S.length % 2 == 1) ∧
    (absorb Csu.clear S).hold = if S.length % 2 = 1 then S.getLastD 0 else 0) ∧
  (∀ (i : Instr) (s t : State) (S : List Byte), s.csu = absorb Csu.clear S → exec i s = .next t →
    t.csu = absorb Csu.clear
      (if t.status.err ≠ none then S
       else match i with
        | .ckClr => []
        | .ckAdd => S ++ s.memRead s.args.a0.toNat s.args.a1.toNat
        | .ckSum => s.memRead s.args.a0.toNat s.args.a1.toNat
        | _ => S))

/-! ### The checksum's mathematics -/

/-- R101 (a) to (g). -/
def Obligations.EndAroundCarryAdditionLaws : Prop :=
  (∀ a b, add1c a b = add1c b a) ∧
  (∀ a b c, add1c (add1c a b) c = add1c a (add1c b c)) ∧
  (∀ a, add1c a 0x0000#16 = a) ∧
  (∀ a b, add1c a b = 0x0000#16 ↔ a = 0x0000#16 ∧ b = 0x0000#16) ∧
  (∀ a, a ≠ 0x0000#16 → add1c a 0xFFFF#16 = a) ∧ add1c 0x0000#16 0xFFFF#16 = 0xFFFF#16 ∧
  (∀ a, add1c a (~~~a) = 0xFFFF#16 ∧ a.toNat + (~~~a).toNat = 0xFFFF) ∧
  (∀ a b, (add1c a b).toNat % 65535 = (a.toNat + b.toNat) % 65535) ∧
  (∀ a b, ¬ (a = 0x0000#16 ∧ b = 0x0000#16) → (add1c a b).toNat = (a.toNat + b.toNat - 1) % 65535 + 1)

/-- R103: the closed form of fold. -/
def Obligations.FoldHasTheClosedForm : Prop :=
  ∀ bs : List Byte,
    ((∀ g ∈ groups bs, g = 0x0000#16) → fold bs = 0x0000#16) ∧
    ((∃ g ∈ groups bs, g ≠ 0x0000#16) → (fold bs).toNat = (groupSum bs - 1) % 65535 + 1) ∧
    (fold bs = 0xFFFF#16 ↔ (∃ b ∈ bs, b ≠ 0x00#8) ∧ 65535 ∣ groupSum bs)

/-- R105: corner values of compute. -/
def Obligations.ChecksumCornerValues : Prop :=
  compute [] = 0xFFFF#16 ∧
  (∀ bs, compute bs = 0xFFFF#16 ↔ ∀ b ∈ bs, b = 0x00#8) ∧
  (∀ bs, compute bs = 0x0000#16 ↔ fold bs = 0xFFFF#16) ∧
  (∀ bs, compute (bs ++ [0x00#8]) = compute bs)

/-- R107: recomputing compute over the finalized bytes gives exactly zero, for IP, ICMP and the UDP sequence; so no command ever
raises ChecksumConsistencyViolation. -/
def Obligations.FinalizedBytesVerify : Prop :=
  (∀ h : IpHeader, compute (encodeIp (finalizeIp h)) = 0x0000#16) ∧
  (∀ h : IcmpHeader, compute (encodeIcmp (finalizeIcmp h)) = 0x0000#16) ∧
  (∀ (p : PshHeader) (u : UdpHeader) (payload : List Byte),
    compute (encodePsh p ++
      encodeUdp { u with csum := compute (encodePsh p ++ encodeUdp { u with csum := 0x0000#16 } ++ payload) } ++
      payload) = 0x0000#16) ∧
  (∀ (i : Instr) (s t : State), exec i s = .next t → t.status.err ≠ some .checksumConsistencyViolation)

/-- R108: absorbing in pieces gives the checksum of the concatenation. -/
def Obligations.AbsorbingInPiecesIsFoldOfTheWhole : Prop :=
  (∀ bs : List Byte, (absorb Csu.clear bs).final = fold bs) ∧
  (∀ (c : Csu) (A B : List Byte), absorb (absorb c A) B = absorb c (A ++ B))

/-- R133: encode and decode are mutually inverse, for each of the five header types. -/
def Obligations.HeaderCodecIsABijection : Prop :=
  (∀ h, decodeIp (encodeIp h) = h) ∧ (∀ bs, bs.length = 20 → encodeIp (decodeIp bs) = bs) ∧
  (∀ h, decodeIcmp (encodeIcmp h) = h) ∧ (∀ bs, bs.length = 8 → encodeIcmp (decodeIcmp bs) = bs) ∧
  (∀ h, decodeUdp (encodeUdp h) = h) ∧ (∀ bs, bs.length = 8 → encodeUdp (decodeUdp bs) = bs) ∧
  (∀ h, decodePsh (encodePsh h) = h) ∧ (∀ bs, bs.length = 12 → encodePsh (decodePsh bs) = bs) ∧
  (∀ h, decodeTcpHeader (encodeTcpHeader h) = h) ∧
  (∀ bs, bs.length = 20 → encodeTcpHeader (decodeTcpHeader bs) = bs)

/-! ### The fixed-size header commands -/

/-- R136: ENC.IP, ENC.ICMP, ENC.UDP, ENC.PSH. -/
def Obligations.EncWritesTheBanksEncoding : Prop :=
  EncShape .encIp (fun s => encodeIp s.ip) 20 ∧ EncShape .encIcmp (fun s => encodeIcmp s.icmp) 8 ∧
  EncShape .encUdp (fun s => encodeUdp s.udp) 8 ∧ EncShape .encPsh (fun s => encodePsh s.psh) 12

/-- R137: DEC.IP, DEC.ICMP, DEC.UDP, DEC.PSH. -/
def Obligations.DecReadsTheBank : Prop :=
  DecShape .decIp 20 (fun s bs => { s with ip := decodeIp bs }) ∧
  DecShape .decIcmp 8 (fun s bs => { s with icmp := decodeIcmp bs }) ∧
  DecShape .decUdp 8 (fun s bs => { s with udp := decodeUdp bs }) ∧
  DecShape .decPsh 12 (fun s bs => { s with psh := decodePsh bs })

/-- R174, R136, R137: decoding where a bank was encoded gives the bank back, whatever the bank held in between. -/
def Obligations.DecAfterEncRestoresTheBank : Prop :=
  ∀ (s t : State) (ip : IpHeader) (icmp : IcmpHeader),
    (s.args.a0.toNat + 20 ≤ s.params.pbufSize → exec .encIp s = .next t →
      ∃ u, exec .decIp { t with ip := ip, args := { t.args with a1 := 20#32 } } = .next u ∧ u.ip = s.ip) ∧
    (s.args.a0.toNat + 8 ≤ s.params.pbufSize → exec .encIcmp s = .next t →
      ∃ u, exec .decIcmp { t with icmp := icmp, args := { t.args with a1 := 8#32 } } = .next u ∧ u.icmp = s.icmp)

/-- R152, R172: FIN stores the checksum of the encoding with the field zero, nothing else; the result verifies, and FIN is
idempotent. -/
def Obligations.FinStoresAChecksumThatVerifies : Prop :=
  ∀ s : State,
    (decode s.params.hasTcp 0x00000022#32 = .ok .finIp ∧
      ∃ t, exec .finIp s = .next t ∧
        t = { s with
          ip := { s.ip with csum := compute (encodeIp { s.ip with csum := 0x0000#16 }) }
          status := okStatus s } ∧
        compute (encodeIp t.ip) = 0x0000#16 ∧ exec .finIp t = .next t) ∧
    (decode s.params.hasTcp 0x00000122#32 = .ok .finIcmp ∧
      ∃ t, exec .finIcmp s = .next t ∧
        t = { s with
          icmp := { s.icmp with csum := compute (encodeIcmp { s.icmp with csum := 0x0000#16 }) }
          status := okStatus s } ∧
        compute (encodeIcmp t.icmp) = 0x0000#16 ∧ exec .finIcmp t = .next t)

/-- R153, R154: BLD.IP builds and finalizes the header, or raises LengthOverflow. -/
def Obligations.BldIpBuildsTheHeader : Prop :=
  ∀ s : State, decode s.params.hasTcp 0x00000030#32 = .ok .bldIp ∧
    (20 + s.args.a0.toNat % 2 ^ 16 ≤ 0xFFFF →
      ∃ t, exec .bldIp s = .next t ∧ t = { s with ip := t.ip, status := okStatus s } ∧
        t.ip.vihl = 0x45#8 ∧ t.ip.tos = 0 ∧ t.ip.tlen.toNat = 20 + s.args.a0.toNat % 2 ^ 16 ∧ t.ip.id = s.params.ipId ∧
        t.ip.frag = 0 ∧ t.ip.ttl = 64#8 ∧ t.ip.proto.toNat = s.args.a1.toNat % 2 ^ 8 ∧ t.ip.src = s.params.localAddr ∧
        t.ip.dst = s.args.a2 ∧ t.ip.csum = compute (encodeIp { t.ip with csum := 0x0000#16 }) ∧
        compute (encodeIp t.ip) = 0x0000#16) ∧
    (0xFFFF < 20 + s.args.a0.toNat % 2 ^ 16 → FailsWith .bldIp s .lengthOverflow)

/-- R173: BLD.ICMP. -/
def Obligations.BldIcmpBuildsAnEchoRequest : Prop :=
  ∀ s : State, decode s.params.hasTcp 0x00000130#32 = .ok .bldIcmp ∧
    ∃ t, exec .bldIcmp s = .next t ∧ t = { s with icmp := t.icmp, status := okStatus s } ∧
      t.icmp.type = 8#8 ∧ t.icmp.code = 0 ∧ t.icmp.id = s.params.icmpId ∧
      t.icmp.seq.toNat = s.args.a0.toNat % 2 ^ 16 ∧
      t.icmp.csum = compute (encodeIcmp { t.icmp with csum := 0x0000#16 }) ∧ compute (encodeIcmp t.icmp) = 0x0000#16

/-- R194: BLD.PSH. -/
def Obligations.BldPshCopiesTheAddressesOfBankIp : Prop :=
  ∀ s : State, decode s.params.hasTcp 0x00000330#32 = .ok .bldPsh ∧
    ∃ t, exec .bldPsh s = .next t ∧ t = { s with psh := t.psh, status := okStatus s } ∧
      t.psh.src = s.ip.src ∧ t.psh.dst = s.ip.dst ∧ t.psh.zero = 0 ∧ t.psh.proto = s.ip.proto ∧
      t.psh.len.toNat = s.args.a0.toNat % 2 ^ 16

/-! ### UDP.PKT -/

/-- R196, R197, R199: the packet UDP.PKT writes, and when it fails and with which error. The payload is read before anything is
written, so the ranges may overlap (R58); a UDP checksum of 0 is stored as it is. -/
def Obligations.UdpPktWritesThePacket : Prop :=
  ∀ s : State, decode s.params.hasTcp 0x00000230#32 = .ok .udpPkt ∧
    (s.args.a1.toNat ≤ 65507 →
      (s.args.a1.toNat = 0 ∨ s.args.a0.toNat + s.args.a1.toNat ≤ s.params.pbufSize) →
      s.args.a4.toNat + 28 + s.args.a1.toNat ≤ s.params.pbufSize →
      ∃ (t : State) (ip : IpHeader) (udp : UdpHeader), exec .udpPkt s = .next t ∧
        t.memRead s.args.a4.toNat (28 + s.args.a1.toNat) =
          encodeIp ip ++ encodeUdp udp ++ s.memRead s.args.a0.toNat s.args.a1.toNat ∧
        ip.vihl = 0x45#8 ∧ ip.tos = 0 ∧ ip.tlen.toNat = 28 + s.args.a1.toNat ∧ ip.id = s.params.ipId ∧ ip.frag = 0 ∧
        ip.ttl = 64#8 ∧ ip.proto = 17#8 ∧ ip.src = s.params.localAddr ∧ ip.dst = s.args.a2 ∧
        ip.csum = compute (encodeIp { ip with csum := 0x0000#16 }) ∧
        udp.sport.toNat = s.args.a3.toNat / 2 ^ 16 ∧ udp.dport.toNat = s.args.a3.toNat % 2 ^ 16 ∧
        udp.len.toNat = 8 + s.args.a1.toNat ∧
        udp.csum = compute
          (encodePsh { src := ip.src, dst := ip.dst, zero := 0x00#8, proto := 17#8, len := udp.len } ++
            encodeUdp { udp with csum := 0x0000#16 } ++ s.memRead s.args.a0.toNat s.args.a1.toNat) ∧
        t.olen.toNat = 28 + s.args.a1.toNat ∧
        SameBytesOutside s t s.args.a4.toNat (28 + s.args.a1.toNat) ∧
        t = { s with mem := t.mem, olen := t.olen, status := okStatus s }) ∧
    (65507 < s.args.a1.toNat → FailsWith .udpPkt s .lengthOverflow) ∧
    (s.args.a1.toNat ≤ 65507 → 0 < s.args.a1.toNat → s.params.pbufSize < s.args.a0.toNat + s.args.a1.toNat →
      FailsWith .udpPkt s .bufferRange) ∧
    (s.args.a1.toNat ≤ 65507 → s.params.pbufSize < s.args.a4.toNat + 28 + s.args.a1.toNat →
      FailsWith .udpPkt s .bufferRange)

/-- R198: the packet's IPv4 header verifies, and its UDP part verifies with the pseudo-header made from the packet's own IPv4
header and UDP length; the checksum over the whole packet is not zero in general. -/
def Obligations.UdpPacketVerifiesRegionByRegion : Prop :=
  (∀ (s t : State), exec .udpPkt s = .next t → t.status.err = none →
    compute ((t.memRead s.args.a4.toNat (28 + s.args.a1.toNat)).take 20) = 0x0000#16 ∧
    compute
      (encodePsh
        { src := (decodeIp ((t.memRead s.args.a4.toNat (28 + s.args.a1.toNat)).take 20)).src
          dst := (decodeIp ((t.memRead s.args.a4.toNat (28 + s.args.a1.toNat)).take 20)).dst
          zero := 0x00#8
          proto := (decodeIp ((t.memRead s.args.a4.toNat (28 + s.args.a1.toNat)).take 20)).proto
          len := (decodeUdp (((t.memRead s.args.a4.toNat (28 + s.args.a1.toNat)).drop 20).take 8)).len } ++
        (t.memRead s.args.a4.toNat (28 + s.args.a1.toNat)).drop 20) = 0x0000#16) ∧
  (∃ s t : State, exec .udpPkt s = .next t ∧ t.status.err = none ∧
    compute (t.memRead s.args.a4.toNat (28 + s.args.a1.toNat)) ≠ 0x0000#16)

/-! ### TCP -/

/-- R222: ENC.TCP. The payload is read before anything is written, so the ranges may overlap (R58). For packets of more than 65535
bytes this is the model's reading, R222 without R56's bound (DEDUCED, log entry 11); an OLEN that 32 bits cannot hold is left out
(log entry 10). -/
def Obligations.EncTcpWritesThePacket : Prop :=
  ∀ s : State, decode true 0x00000420#32 = .ok .encTcp ∧
    (TcpBankOk s.tcp → (s.tcp.dlen.toNat = 0 ∨ s.tcp.daddr.toNat + s.tcp.dlen.toNat ≤ s.params.pbufSize) →
      s.args.a0.toNat + (20 + s.tcp.optLen.toNat + s.tcp.dlen.toNat) ≤ s.params.pbufSize →
      ∃ t, exec .encTcp s = .next t ∧
        t.memRead s.args.a0.toNat (20 + s.tcp.optLen.toNat + s.tcp.dlen.toNat) =
          encodeTcpHeader s.tcp.hdr ++ s.tcp.opt.toList.take s.tcp.optLen.toNat ++
            s.memRead s.tcp.daddr.toNat s.tcp.dlen.toNat ∧
        (20 + s.tcp.optLen.toNat + s.tcp.dlen.toNat < 2 ^ 32 →
          t.olen.toNat = 20 + s.tcp.optLen.toNat + s.tcp.dlen.toNat) ∧
        SameBytesOutside s t s.args.a0.toNat (20 + s.tcp.optLen.toNat + s.tcp.dlen.toNat) ∧
        t = { s with mem := t.mem, olen := t.olen, status := okStatus s }) ∧
    (¬ TcpBankOk s.tcp → FailsWith .encTcp s .tcpFormat) ∧
    (TcpBankOk s.tcp → 0 < s.tcp.dlen.toNat → s.params.pbufSize < s.tcp.daddr.toNat + s.tcp.dlen.toNat →
      FailsWith .encTcp s .bufferRange) ∧
    (TcpBankOk s.tcp → s.params.pbufSize < s.args.a0.toNat + (20 + s.tcp.optLen.toNat + s.tcp.dlen.toNat) →
      FailsWith .encTcp s .bufferRange)

/-- R224: DEC.TCP. -/
def Obligations.DecTcpParsesThePacket : Prop :=
  ∀ s : State, decode true 0x00000421#32 = .ok .decTcp ∧
    (20 ≤ s.args.a1.toNat → s.args.a0.toNat + s.args.a1.toNat ≤ s.params.pbufSize → 20 ≤ tcpOffAt s →
      tcpOffAt s ≤ s.args.a1.toNat →
      ∃ t, exec .decTcp s = .next t ∧ t.tcp.hdr = decodeTcpHeader (s.memRead s.args.a0.toNat 20) ∧
        t.tcp.optLen.toNat = tcpOffAt s - 20 ∧
        (∀ (i : Nat) (h : i < 40), t.tcp.opt[i] =
          if i < tcpOffAt s - 20 then s.pbufByte (s.args.a0.toNat + 20 + i) else 0x00#8) ∧
        t.tcp.daddr.toNat = (s.args.a0.toNat + tcpOffAt s) % 2 ^ 32 ∧
        t.tcp.dlen.toNat = s.args.a1.toNat - tcpOffAt s ∧
        t = { s with tcp := t.tcp, status := okStatus s }) ∧
    (s.args.a1.toNat < 20 → FailsWith .decTcp s .lengthMismatch) ∧
    (20 ≤ s.args.a1.toNat → s.params.pbufSize < s.args.a0.toNat + s.args.a1.toNat →
      FailsWith .decTcp s .bufferRange) ∧
    (20 ≤ s.args.a1.toNat → s.args.a0.toNat + s.args.a1.toNat ≤ s.params.pbufSize →
      (tcpOffAt s < 20 ∨ s.args.a1.toNat < tcpOffAt s) → FailsWith .decTcp s .tcpFormat)

/-- R226, R227: BLD.TCP; the option is emitted when flags is exactly the SYN bit. -/
def Obligations.BldTcpBuildsThePacketValue : Prop :=
  ∀ s : State, decode true 0x00000430#32 = .ok .bldTcp ∧ ∃ t, exec .bldTcp s = .next t ∧ t = { s with tcp := t.tcp, status := okStatus s } ∧
    t.tcp.hdr.sport.toNat = s.args.a4.toNat / 2 ^ 16 ∧ t.tcp.hdr.dport.toNat = s.args.a4.toNat % 2 ^ 16 ∧
    t.tcp.hdr.seq = s.args.a2 ∧ t.tcp.hdr.ack = s.args.a3 ∧ t.tcp.hdr.flags.toNat = s.args.a5.toNat % 2 ^ 8 ∧
    t.tcp.hdr.win = s.params.tcpWindow ∧ t.tcp.hdr.csum = 0 ∧ t.tcp.hdr.urg = 0 ∧ t.tcp.daddr = s.args.a0 ∧
    t.tcp.dlen = s.args.a1 ∧
    (t.tcp.hdr.flags = s.params.tcpFlagSyn → t.tcp.hdr.off = 0x60#8 ∧ t.tcp.optLen = 4#6 ∧
      t.tcp.opt.toList = [0x02#8, 0x04#8, 0x05#8, 0xb4#8] ++ List.replicate 36 0x00#8) ∧
    (t.tcp.hdr.flags ≠ s.params.tcpFlagSyn → t.tcp.hdr.off = 0x50#8 ∧ t.tcp.optLen = 0#6 ∧
      t.tcp.opt.toList = List.replicate 40 0x00#8)

/-- R29: the data offset encodes (20 + options length) / 4 after BLD.TCP and after a successful DEC.TCP. -/
def Obligations.DataOffsetAgreesAfterBuildAndParse : Prop :=
  (∀ s t : State, exec .bldTcp s = .next t → TcpBankOk t.tcp) ∧
  (∀ s t : State, exec .decTcp s = .next t → t.status.err = none → TcpBankOk t.tcp)

/-- R224: after a successful DEC.TCP, ENC.TCP to another address reproduces the bytes exactly. -/
def Obligations.EncTcpAfterDecTcpReproducesTheBytes : Prop :=
  ∀ (s t : State) (d : Word), s.params.valid → exec .decTcp s = .next t → t.status.err = none →
    d.toNat + s.args.a1.toNat ≤ s.params.pbufSize →
    ∃ u, exec .encTcp { t with args := { t.args with a0 := d } } = .next u ∧ u.status.err = none ∧
      u.memRead d.toNat s.args.a1.toNat = s.memRead s.args.a0.toNat s.args.a1.toNat
end

