-- ==== Sys2Proof/Laws/Codec.lean ====
section
/-! SUPPORT. The lengths of the wire layouts (R130) and the small lemmas of the byte-list readers. -/

namespace Sys2Proof.Machine

@[simp] theorem be16_length (v : Half) : (be16 v).length = 2 := rfl
@[simp] theorem be32_length (v : Word) : (be32 v).length = 4 := rfl
@[simp] theorem encodeIp_length (h : IpHeader) : (encodeIp h).length = 20 := rfl
@[simp] theorem encodeIcmp_length (h : IcmpHeader) : (encodeIcmp h).length = 8 := rfl
@[simp] theorem encodeUdp_length (h : UdpHeader) : (encodeUdp h).length = 8 := rfl
@[simp] theorem encodePsh_length (h : PshHeader) : (encodePsh h).length = 12 := rfl
@[simp] theorem encodeTcpHeader_length (h : TcpHeader) : (encodeTcpHeader h).length = 20 := rfl
@[simp] theorem mssOption_length : mssOption.length = 4 := rfl

@[simp] theorem finalizeIp_vihl (h : IpHeader) : (finalizeIp h).vihl = h.vihl := rfl
@[simp] theorem finalizeIp_tos (h : IpHeader) : (finalizeIp h).tos = h.tos := rfl
@[simp] theorem finalizeIp_tlen (h : IpHeader) : (finalizeIp h).tlen = h.tlen := rfl
@[simp] theorem finalizeIp_id (h : IpHeader) : (finalizeIp h).id = h.id := rfl
@[simp] theorem finalizeIp_frag (h : IpHeader) : (finalizeIp h).frag = h.frag := rfl
@[simp] theorem finalizeIp_ttl (h : IpHeader) : (finalizeIp h).ttl = h.ttl := rfl
@[simp] theorem finalizeIp_proto (h : IpHeader) : (finalizeIp h).proto = h.proto := rfl
@[simp] theorem finalizeIp_src (h : IpHeader) : (finalizeIp h).src = h.src := rfl
@[simp] theorem finalizeIp_dst (h : IpHeader) : (finalizeIp h).dst = h.dst := rfl
@[simp] theorem finalizeIcmp_type (h : IcmpHeader) : (finalizeIcmp h).type = h.type := rfl
@[simp] theorem finalizeIcmp_code (h : IcmpHeader) : (finalizeIcmp h).code = h.code := rfl
@[simp] theorem finalizeIcmp_id (h : IcmpHeader) : (finalizeIcmp h).id = h.id := rfl
@[simp] theorem finalizeIcmp_seq (h : IcmpHeader) : (finalizeIcmp h).seq = h.seq := rfl

/-- The high byte of a two-byte group (R14). -/
theorem u16be_extract_high (hi lo : Byte) : (u16be hi lo).extractLsb' 8 8 = hi := by
  apply BitVec.eq_of_getLsbD_eq
  intro i h
  simp only [u16be, BitVec.getLsbD_extractLsb', h, decide_true, Bool.true_and, BitVec.getLsbD_append]
  rw [if_neg (by omega), Nat.add_sub_cancel_left]

/-- The low byte of a two-byte group (R14). -/
theorem u16be_extract_low (hi lo : Byte) : (u16be hi lo).extractLsb' 0 8 = lo := by
  apply BitVec.eq_of_getLsbD_eq
  intro i h
  simp only [u16be, BitVec.getLsbD_extractLsb', h, decide_true, Bool.true_and, BitVec.getLsbD_append, Nat.zero_add,
    if_true]

/-- The two bytes of a u16 put together again (R14). -/
theorem u16be_be16 (v : Half) : u16be (v.extractLsb' 8 8) (v.extractLsb' 0 8) = v := by
  apply BitVec.eq_of_getLsbD_eq
  intro i h
  simp only [u16be, BitVec.getLsbD_append, BitVec.getLsbD_extractLsb', Nat.zero_add]
  split
  · simp [*]
  · rw [show 8 + (i - 8) = i by omega]
    simp [show i - 8 < 8 by omega]

/-- The bytes of a u32 made of four bytes (R14). -/
theorem u32be_extract (b0 b1 b2 b3 : Byte) :
    (u32be b0 b1 b2 b3).extractLsb' 24 8 = b0 ∧ (u32be b0 b1 b2 b3).extractLsb' 16 8 = b1 ∧
    (u32be b0 b1 b2 b3).extractLsb' 8 8 = b2 ∧ (u32be b0 b1 b2 b3).extractLsb' 0 8 = b3 := by
  refine ⟨?_, ?_, ?_, ?_⟩ <;>
    (apply BitVec.eq_of_getLsbD_eq
     intro i h
     simp only [u32be, BitVec.getLsbD_extractLsb', h, decide_true, Bool.true_and, BitVec.getLsbD_append, Nat.zero_add])
  · rw [if_neg (by omega), if_neg (by omega), if_neg (by omega)]
    congr 1
    omega
  · rw [if_neg (by omega), if_neg (by omega), if_pos (by omega)]
    congr 1
    omega
  · rw [if_neg (by omega), if_pos (by omega)]
    congr 1
    omega
  · simp

/-- The four bytes of a u32 put together again (R14). -/
theorem u32be_be32 (v : Word) :
    u32be (v.extractLsb' 24 8) (v.extractLsb' 16 8) (v.extractLsb' 8 8) (v.extractLsb' 0 8) = v := by
  apply BitVec.eq_of_getLsbD_eq
  intro i h
  simp only [u32be, BitVec.getLsbD_append, BitVec.getLsbD_extractLsb', Nat.zero_add]
  split
  · simp [*]
  · split
    · rw [show 8 + (i - 8) = i by omega]
      simp [show i - 8 < 8 by omega]
    · split
      · rw [show 16 + (i - 8 - 8) = i by omega]
        simp [show i - 8 - 8 < 8 by omega]
      · rw [show 24 + (i - 8 - 8 - 8) = i by omega]
        simp [show i - 8 - 8 - 8 < 8 by omega]

/-- The byte of an option store (R29). -/
theorem optStore_getElem (bs : List Byte) (i : Nat) (h : i < 40) : (optStore bs)[i] = byteAt bs i := by
  simp [optStore]

end Sys2Proof.Machine
end

