-- ==== Sys2Proof/Laws/State.lean ====
section
/-! SUPPORT. One lemma per field per update of the state, true by rfl: a proof about an operation reads the field it needs and
never unfolds a record update. -/

namespace Sys2Proof.Machine

/-! ### State.setCsu -/

@[simp] theorem State.setCsu_csu (s : State) (v : Csu) : (s.setCsu v).csu = v := rfl
@[simp] theorem State.setCsu_args (s : State) (v : Csu) : (s.setCsu v).args = s.args := rfl
@[simp] theorem State.setCsu_ip (s : State) (v : Csu) : (s.setCsu v).ip = s.ip := rfl
@[simp] theorem State.setCsu_icmp (s : State) (v : Csu) : (s.setCsu v).icmp = s.icmp := rfl
@[simp] theorem State.setCsu_udp (s : State) (v : Csu) : (s.setCsu v).udp = s.udp := rfl
@[simp] theorem State.setCsu_psh (s : State) (v : Csu) : (s.setCsu v).psh = s.psh := rfl
@[simp] theorem State.setCsu_tcp (s : State) (v : Csu) : (s.setCsu v).tcp = s.tcp := rfl
@[simp] theorem State.setCsu_cmd (s : State) (v : Csu) : (s.setCsu v).cmd = s.cmd := rfl
@[simp] theorem State.setCsu_status (s : State) (v : Csu) : (s.setCsu v).status = s.status := rfl
@[simp] theorem State.setCsu_res (s : State) (v : Csu) : (s.setCsu v).res = s.res := rfl
@[simp] theorem State.setCsu_olen (s : State) (v : Csu) : (s.setCsu v).olen = s.olen := rfl
@[simp] theorem State.setCsu_mem (s : State) (v : Csu) : (s.setCsu v).mem = s.mem := rfl
@[simp] theorem State.setCsu_epoch (s : State) (v : Csu) : (s.setCsu v).epoch = s.epoch := rfl
@[simp] theorem State.setCsu_params (s : State) (v : Csu) : (s.setCsu v).params = s.params := rfl
@[simp] theorem State.setCsu_script (s : State) (v : Csu) : (s.setCsu v).script = s.script := rfl
@[simp] theorem State.setCsu_replies (s : State) (v : Csu) : (s.setCsu v).replies = s.replies := rfl

/-! ### State.setArgs -/

@[simp] theorem State.setArgs_csu (s : State) (v : Args) : (s.setArgs v).csu = s.csu := rfl
@[simp] theorem State.setArgs_args (s : State) (v : Args) : (s.setArgs v).args = v := rfl
@[simp] theorem State.setArgs_ip (s : State) (v : Args) : (s.setArgs v).ip = s.ip := rfl
@[simp] theorem State.setArgs_icmp (s : State) (v : Args) : (s.setArgs v).icmp = s.icmp := rfl
@[simp] theorem State.setArgs_udp (s : State) (v : Args) : (s.setArgs v).udp = s.udp := rfl
@[simp] theorem State.setArgs_psh (s : State) (v : Args) : (s.setArgs v).psh = s.psh := rfl
@[simp] theorem State.setArgs_tcp (s : State) (v : Args) : (s.setArgs v).tcp = s.tcp := rfl
@[simp] theorem State.setArgs_cmd (s : State) (v : Args) : (s.setArgs v).cmd = s.cmd := rfl
@[simp] theorem State.setArgs_status (s : State) (v : Args) : (s.setArgs v).status = s.status := rfl
@[simp] theorem State.setArgs_res (s : State) (v : Args) : (s.setArgs v).res = s.res := rfl
@[simp] theorem State.setArgs_olen (s : State) (v : Args) : (s.setArgs v).olen = s.olen := rfl
@[simp] theorem State.setArgs_mem (s : State) (v : Args) : (s.setArgs v).mem = s.mem := rfl
@[simp] theorem State.setArgs_epoch (s : State) (v : Args) : (s.setArgs v).epoch = s.epoch := rfl
@[simp] theorem State.setArgs_params (s : State) (v : Args) : (s.setArgs v).params = s.params := rfl
@[simp] theorem State.setArgs_script (s : State) (v : Args) : (s.setArgs v).script = s.script := rfl
@[simp] theorem State.setArgs_replies (s : State) (v : Args) : (s.setArgs v).replies = s.replies := rfl

/-! ### State.setIp -/

@[simp] theorem State.setIp_csu (s : State) (v : IpHeader) : (s.setIp v).csu = s.csu := rfl
@[simp] theorem State.setIp_args (s : State) (v : IpHeader) : (s.setIp v).args = s.args := rfl
@[simp] theorem State.setIp_ip (s : State) (v : IpHeader) : (s.setIp v).ip = v := rfl
@[simp] theorem State.setIp_icmp (s : State) (v : IpHeader) : (s.setIp v).icmp = s.icmp := rfl
@[simp] theorem State.setIp_udp (s : State) (v : IpHeader) : (s.setIp v).udp = s.udp := rfl
@[simp] theorem State.setIp_psh (s : State) (v : IpHeader) : (s.setIp v).psh = s.psh := rfl
@[simp] theorem State.setIp_tcp (s : State) (v : IpHeader) : (s.setIp v).tcp = s.tcp := rfl
@[simp] theorem State.setIp_cmd (s : State) (v : IpHeader) : (s.setIp v).cmd = s.cmd := rfl
@[simp] theorem State.setIp_status (s : State) (v : IpHeader) : (s.setIp v).status = s.status := rfl
@[simp] theorem State.setIp_res (s : State) (v : IpHeader) : (s.setIp v).res = s.res := rfl
@[simp] theorem State.setIp_olen (s : State) (v : IpHeader) : (s.setIp v).olen = s.olen := rfl
@[simp] theorem State.setIp_mem (s : State) (v : IpHeader) : (s.setIp v).mem = s.mem := rfl
@[simp] theorem State.setIp_epoch (s : State) (v : IpHeader) : (s.setIp v).epoch = s.epoch := rfl
@[simp] theorem State.setIp_params (s : State) (v : IpHeader) : (s.setIp v).params = s.params := rfl
@[simp] theorem State.setIp_script (s : State) (v : IpHeader) : (s.setIp v).script = s.script := rfl
@[simp] theorem State.setIp_replies (s : State) (v : IpHeader) : (s.setIp v).replies = s.replies := rfl

/-! ### State.setIcmp -/

@[simp] theorem State.setIcmp_csu (s : State) (v : IcmpHeader) : (s.setIcmp v).csu = s.csu := rfl
@[simp] theorem State.setIcmp_args (s : State) (v : IcmpHeader) : (s.setIcmp v).args = s.args := rfl
@[simp] theorem State.setIcmp_ip (s : State) (v : IcmpHeader) : (s.setIcmp v).ip = s.ip := rfl
@[simp] theorem State.setIcmp_icmp (s : State) (v : IcmpHeader) : (s.setIcmp v).icmp = v := rfl
@[simp] theorem State.setIcmp_udp (s : State) (v : IcmpHeader) : (s.setIcmp v).udp = s.udp := rfl
@[simp] theorem State.setIcmp_psh (s : State) (v : IcmpHeader) : (s.setIcmp v).psh = s.psh := rfl
@[simp] theorem State.setIcmp_tcp (s : State) (v : IcmpHeader) : (s.setIcmp v).tcp = s.tcp := rfl
@[simp] theorem State.setIcmp_cmd (s : State) (v : IcmpHeader) : (s.setIcmp v).cmd = s.cmd := rfl
@[simp] theorem State.setIcmp_status (s : State) (v : IcmpHeader) : (s.setIcmp v).status = s.status := rfl
@[simp] theorem State.setIcmp_res (s : State) (v : IcmpHeader) : (s.setIcmp v).res = s.res := rfl
@[simp] theorem State.setIcmp_olen (s : State) (v : IcmpHeader) : (s.setIcmp v).olen = s.olen := rfl
@[simp] theorem State.setIcmp_mem (s : State) (v : IcmpHeader) : (s.setIcmp v).mem = s.mem := rfl
@[simp] theorem State.setIcmp_epoch (s : State) (v : IcmpHeader) : (s.setIcmp v).epoch = s.epoch := rfl
@[simp] theorem State.setIcmp_params (s : State) (v : IcmpHeader) : (s.setIcmp v).params = s.params := rfl
@[simp] theorem State.setIcmp_script (s : State) (v : IcmpHeader) : (s.setIcmp v).script = s.script := rfl
@[simp] theorem State.setIcmp_replies (s : State) (v : IcmpHeader) : (s.setIcmp v).replies = s.replies := rfl

/-! ### State.setUdp -/

@[simp] theorem State.setUdp_csu (s : State) (v : UdpHeader) : (s.setUdp v).csu = s.csu := rfl
@[simp] theorem State.setUdp_args (s : State) (v : UdpHeader) : (s.setUdp v).args = s.args := rfl
@[simp] theorem State.setUdp_ip (s : State) (v : UdpHeader) : (s.setUdp v).ip = s.ip := rfl
@[simp] theorem State.setUdp_icmp (s : State) (v : UdpHeader) : (s.setUdp v).icmp = s.icmp := rfl
@[simp] theorem State.setUdp_udp (s : State) (v : UdpHeader) : (s.setUdp v).udp = v := rfl
@[simp] theorem State.setUdp_psh (s : State) (v : UdpHeader) : (s.setUdp v).psh = s.psh := rfl
@[simp] theorem State.setUdp_tcp (s : State) (v : UdpHeader) : (s.setUdp v).tcp = s.tcp := rfl
@[simp] theorem State.setUdp_cmd (s : State) (v : UdpHeader) : (s.setUdp v).cmd = s.cmd := rfl
@[simp] theorem State.setUdp_status (s : State) (v : UdpHeader) : (s.setUdp v).status = s.status := rfl
@[simp] theorem State.setUdp_res (s : State) (v : UdpHeader) : (s.setUdp v).res = s.res := rfl
@[simp] theorem State.setUdp_olen (s : State) (v : UdpHeader) : (s.setUdp v).olen = s.olen := rfl
@[simp] theorem State.setUdp_mem (s : State) (v : UdpHeader) : (s.setUdp v).mem = s.mem := rfl
@[simp] theorem State.setUdp_epoch (s : State) (v : UdpHeader) : (s.setUdp v).epoch = s.epoch := rfl
@[simp] theorem State.setUdp_params (s : State) (v : UdpHeader) : (s.setUdp v).params = s.params := rfl
@[simp] theorem State.setUdp_script (s : State) (v : UdpHeader) : (s.setUdp v).script = s.script := rfl
@[simp] theorem State.setUdp_replies (s : State) (v : UdpHeader) : (s.setUdp v).replies = s.replies := rfl

/-! ### State.setPsh -/

@[simp] theorem State.setPsh_csu (s : State) (v : PshHeader) : (s.setPsh v).csu = s.csu := rfl
@[simp] theorem State.setPsh_args (s : State) (v : PshHeader) : (s.setPsh v).args = s.args := rfl
@[simp] theorem State.setPsh_ip (s : State) (v : PshHeader) : (s.setPsh v).ip = s.ip := rfl
@[simp] theorem State.setPsh_icmp (s : State) (v : PshHeader) : (s.setPsh v).icmp = s.icmp := rfl
@[simp] theorem State.setPsh_udp (s : State) (v : PshHeader) : (s.setPsh v).udp = s.udp := rfl
@[simp] theorem State.setPsh_psh (s : State) (v : PshHeader) : (s.setPsh v).psh = v := rfl
@[simp] theorem State.setPsh_tcp (s : State) (v : PshHeader) : (s.setPsh v).tcp = s.tcp := rfl
@[simp] theorem State.setPsh_cmd (s : State) (v : PshHeader) : (s.setPsh v).cmd = s.cmd := rfl
@[simp] theorem State.setPsh_status (s : State) (v : PshHeader) : (s.setPsh v).status = s.status := rfl
@[simp] theorem State.setPsh_res (s : State) (v : PshHeader) : (s.setPsh v).res = s.res := rfl
@[simp] theorem State.setPsh_olen (s : State) (v : PshHeader) : (s.setPsh v).olen = s.olen := rfl
@[simp] theorem State.setPsh_mem (s : State) (v : PshHeader) : (s.setPsh v).mem = s.mem := rfl
@[simp] theorem State.setPsh_epoch (s : State) (v : PshHeader) : (s.setPsh v).epoch = s.epoch := rfl
@[simp] theorem State.setPsh_params (s : State) (v : PshHeader) : (s.setPsh v).params = s.params := rfl
@[simp] theorem State.setPsh_script (s : State) (v : PshHeader) : (s.setPsh v).script = s.script := rfl
@[simp] theorem State.setPsh_replies (s : State) (v : PshHeader) : (s.setPsh v).replies = s.replies := rfl

/-! ### State.setTcp -/

@[simp] theorem State.setTcp_csu (s : State) (v : TcpBank) : (s.setTcp v).csu = s.csu := rfl
@[simp] theorem State.setTcp_args (s : State) (v : TcpBank) : (s.setTcp v).args = s.args := rfl
@[simp] theorem State.setTcp_ip (s : State) (v : TcpBank) : (s.setTcp v).ip = s.ip := rfl
@[simp] theorem State.setTcp_icmp (s : State) (v : TcpBank) : (s.setTcp v).icmp = s.icmp := rfl
@[simp] theorem State.setTcp_udp (s : State) (v : TcpBank) : (s.setTcp v).udp = s.udp := rfl
@[simp] theorem State.setTcp_psh (s : State) (v : TcpBank) : (s.setTcp v).psh = s.psh := rfl
@[simp] theorem State.setTcp_tcp (s : State) (v : TcpBank) : (s.setTcp v).tcp = v := rfl
@[simp] theorem State.setTcp_cmd (s : State) (v : TcpBank) : (s.setTcp v).cmd = s.cmd := rfl
@[simp] theorem State.setTcp_status (s : State) (v : TcpBank) : (s.setTcp v).status = s.status := rfl
@[simp] theorem State.setTcp_res (s : State) (v : TcpBank) : (s.setTcp v).res = s.res := rfl
@[simp] theorem State.setTcp_olen (s : State) (v : TcpBank) : (s.setTcp v).olen = s.olen := rfl
@[simp] theorem State.setTcp_mem (s : State) (v : TcpBank) : (s.setTcp v).mem = s.mem := rfl
@[simp] theorem State.setTcp_epoch (s : State) (v : TcpBank) : (s.setTcp v).epoch = s.epoch := rfl
@[simp] theorem State.setTcp_params (s : State) (v : TcpBank) : (s.setTcp v).params = s.params := rfl
@[simp] theorem State.setTcp_script (s : State) (v : TcpBank) : (s.setTcp v).script = s.script := rfl
@[simp] theorem State.setTcp_replies (s : State) (v : TcpBank) : (s.setTcp v).replies = s.replies := rfl

/-! ### State.setCmd -/

@[simp] theorem State.setCmd_csu (s : State) (v : Word) : (s.setCmd v).csu = s.csu := rfl
@[simp] theorem State.setCmd_args (s : State) (v : Word) : (s.setCmd v).args = s.args := rfl
@[simp] theorem State.setCmd_ip (s : State) (v : Word) : (s.setCmd v).ip = s.ip := rfl
@[simp] theorem State.setCmd_icmp (s : State) (v : Word) : (s.setCmd v).icmp = s.icmp := rfl
@[simp] theorem State.setCmd_udp (s : State) (v : Word) : (s.setCmd v).udp = s.udp := rfl
@[simp] theorem State.setCmd_psh (s : State) (v : Word) : (s.setCmd v).psh = s.psh := rfl
@[simp] theorem State.setCmd_tcp (s : State) (v : Word) : (s.setCmd v).tcp = s.tcp := rfl
@[simp] theorem State.setCmd_cmd (s : State) (v : Word) : (s.setCmd v).cmd = v := rfl
@[simp] theorem State.setCmd_status (s : State) (v : Word) : (s.setCmd v).status = s.status := rfl
@[simp] theorem State.setCmd_res (s : State) (v : Word) : (s.setCmd v).res = s.res := rfl
@[simp] theorem State.setCmd_olen (s : State) (v : Word) : (s.setCmd v).olen = s.olen := rfl
@[simp] theorem State.setCmd_mem (s : State) (v : Word) : (s.setCmd v).mem = s.mem := rfl
@[simp] theorem State.setCmd_epoch (s : State) (v : Word) : (s.setCmd v).epoch = s.epoch := rfl
@[simp] theorem State.setCmd_params (s : State) (v : Word) : (s.setCmd v).params = s.params := rfl
@[simp] theorem State.setCmd_script (s : State) (v : Word) : (s.setCmd v).script = s.script := rfl
@[simp] theorem State.setCmd_replies (s : State) (v : Word) : (s.setCmd v).replies = s.replies := rfl

/-! ### State.setStatus -/

@[simp] theorem State.setStatus_csu (s : State) (v : Status) : (s.setStatus v).csu = s.csu := rfl
@[simp] theorem State.setStatus_args (s : State) (v : Status) : (s.setStatus v).args = s.args := rfl
@[simp] theorem State.setStatus_ip (s : State) (v : Status) : (s.setStatus v).ip = s.ip := rfl
@[simp] theorem State.setStatus_icmp (s : State) (v : Status) : (s.setStatus v).icmp = s.icmp := rfl
@[simp] theorem State.setStatus_udp (s : State) (v : Status) : (s.setStatus v).udp = s.udp := rfl
@[simp] theorem State.setStatus_psh (s : State) (v : Status) : (s.setStatus v).psh = s.psh := rfl
@[simp] theorem State.setStatus_tcp (s : State) (v : Status) : (s.setStatus v).tcp = s.tcp := rfl
@[simp] theorem State.setStatus_cmd (s : State) (v : Status) : (s.setStatus v).cmd = s.cmd := rfl
@[simp] theorem State.setStatus_status (s : State) (v : Status) : (s.setStatus v).status = v := rfl
@[simp] theorem State.setStatus_res (s : State) (v : Status) : (s.setStatus v).res = s.res := rfl
@[simp] theorem State.setStatus_olen (s : State) (v : Status) : (s.setStatus v).olen = s.olen := rfl
@[simp] theorem State.setStatus_mem (s : State) (v : Status) : (s.setStatus v).mem = s.mem := rfl
@[simp] theorem State.setStatus_epoch (s : State) (v : Status) : (s.setStatus v).epoch = s.epoch := rfl
@[simp] theorem State.setStatus_params (s : State) (v : Status) : (s.setStatus v).params = s.params := rfl
@[simp] theorem State.setStatus_script (s : State) (v : Status) : (s.setStatus v).script = s.script := rfl
@[simp] theorem State.setStatus_replies (s : State) (v : Status) : (s.setStatus v).replies = s.replies := rfl

/-! ### State.setRes -/

@[simp] theorem State.setRes_csu (s : State) (v : Half) : (s.setRes v).csu = s.csu := rfl
@[simp] theorem State.setRes_args (s : State) (v : Half) : (s.setRes v).args = s.args := rfl
@[simp] theorem State.setRes_ip (s : State) (v : Half) : (s.setRes v).ip = s.ip := rfl
@[simp] theorem State.setRes_icmp (s : State) (v : Half) : (s.setRes v).icmp = s.icmp := rfl
@[simp] theorem State.setRes_udp (s : State) (v : Half) : (s.setRes v).udp = s.udp := rfl
@[simp] theorem State.setRes_psh (s : State) (v : Half) : (s.setRes v).psh = s.psh := rfl
@[simp] theorem State.setRes_tcp (s : State) (v : Half) : (s.setRes v).tcp = s.tcp := rfl
@[simp] theorem State.setRes_cmd (s : State) (v : Half) : (s.setRes v).cmd = s.cmd := rfl
@[simp] theorem State.setRes_status (s : State) (v : Half) : (s.setRes v).status = s.status := rfl
@[simp] theorem State.setRes_res (s : State) (v : Half) : (s.setRes v).res = v := rfl
@[simp] theorem State.setRes_olen (s : State) (v : Half) : (s.setRes v).olen = s.olen := rfl
@[simp] theorem State.setRes_mem (s : State) (v : Half) : (s.setRes v).mem = s.mem := rfl
@[simp] theorem State.setRes_epoch (s : State) (v : Half) : (s.setRes v).epoch = s.epoch := rfl
@[simp] theorem State.setRes_params (s : State) (v : Half) : (s.setRes v).params = s.params := rfl
@[simp] theorem State.setRes_script (s : State) (v : Half) : (s.setRes v).script = s.script := rfl
@[simp] theorem State.setRes_replies (s : State) (v : Half) : (s.setRes v).replies = s.replies := rfl

/-! ### State.setOlen -/

@[simp] theorem State.setOlen_csu (s : State) (v : Word) : (s.setOlen v).csu = s.csu := rfl
@[simp] theorem State.setOlen_args (s : State) (v : Word) : (s.setOlen v).args = s.args := rfl
@[simp] theorem State.setOlen_ip (s : State) (v : Word) : (s.setOlen v).ip = s.ip := rfl
@[simp] theorem State.setOlen_icmp (s : State) (v : Word) : (s.setOlen v).icmp = s.icmp := rfl
@[simp] theorem State.setOlen_udp (s : State) (v : Word) : (s.setOlen v).udp = s.udp := rfl
@[simp] theorem State.setOlen_psh (s : State) (v : Word) : (s.setOlen v).psh = s.psh := rfl
@[simp] theorem State.setOlen_tcp (s : State) (v : Word) : (s.setOlen v).tcp = s.tcp := rfl
@[simp] theorem State.setOlen_cmd (s : State) (v : Word) : (s.setOlen v).cmd = s.cmd := rfl
@[simp] theorem State.setOlen_status (s : State) (v : Word) : (s.setOlen v).status = s.status := rfl
@[simp] theorem State.setOlen_res (s : State) (v : Word) : (s.setOlen v).res = s.res := rfl
@[simp] theorem State.setOlen_olen (s : State) (v : Word) : (s.setOlen v).olen = v := rfl
@[simp] theorem State.setOlen_mem (s : State) (v : Word) : (s.setOlen v).mem = s.mem := rfl
@[simp] theorem State.setOlen_epoch (s : State) (v : Word) : (s.setOlen v).epoch = s.epoch := rfl
@[simp] theorem State.setOlen_params (s : State) (v : Word) : (s.setOlen v).params = s.params := rfl
@[simp] theorem State.setOlen_script (s : State) (v : Word) : (s.setOlen v).script = s.script := rfl
@[simp] theorem State.setOlen_replies (s : State) (v : Word) : (s.setOlen v).replies = s.replies := rfl

/-! ### State.setMem -/

@[simp] theorem State.setMem_csu (s : State) (v : Memory) : (s.setMem v).csu = s.csu := rfl
@[simp] theorem State.setMem_args (s : State) (v : Memory) : (s.setMem v).args = s.args := rfl
@[simp] theorem State.setMem_ip (s : State) (v : Memory) : (s.setMem v).ip = s.ip := rfl
@[simp] theorem State.setMem_icmp (s : State) (v : Memory) : (s.setMem v).icmp = s.icmp := rfl
@[simp] theorem State.setMem_udp (s : State) (v : Memory) : (s.setMem v).udp = s.udp := rfl
@[simp] theorem State.setMem_psh (s : State) (v : Memory) : (s.setMem v).psh = s.psh := rfl
@[simp] theorem State.setMem_tcp (s : State) (v : Memory) : (s.setMem v).tcp = s.tcp := rfl
@[simp] theorem State.setMem_cmd (s : State) (v : Memory) : (s.setMem v).cmd = s.cmd := rfl
@[simp] theorem State.setMem_status (s : State) (v : Memory) : (s.setMem v).status = s.status := rfl
@[simp] theorem State.setMem_res (s : State) (v : Memory) : (s.setMem v).res = s.res := rfl
@[simp] theorem State.setMem_olen (s : State) (v : Memory) : (s.setMem v).olen = s.olen := rfl
@[simp] theorem State.setMem_mem (s : State) (v : Memory) : (s.setMem v).mem = v := rfl
@[simp] theorem State.setMem_epoch (s : State) (v : Memory) : (s.setMem v).epoch = s.epoch := rfl
@[simp] theorem State.setMem_params (s : State) (v : Memory) : (s.setMem v).params = s.params := rfl
@[simp] theorem State.setMem_script (s : State) (v : Memory) : (s.setMem v).script = s.script := rfl
@[simp] theorem State.setMem_replies (s : State) (v : Memory) : (s.setMem v).replies = s.replies := rfl

/-! ### State.setScript -/

@[simp] theorem State.setScript_csu (s : State) (v : List Transaction) : (s.setScript v).csu = s.csu := rfl
@[simp] theorem State.setScript_args (s : State) (v : List Transaction) : (s.setScript v).args = s.args := rfl
@[simp] theorem State.setScript_ip (s : State) (v : List Transaction) : (s.setScript v).ip = s.ip := rfl
@[simp] theorem State.setScript_icmp (s : State) (v : List Transaction) : (s.setScript v).icmp = s.icmp := rfl
@[simp] theorem State.setScript_udp (s : State) (v : List Transaction) : (s.setScript v).udp = s.udp := rfl
@[simp] theorem State.setScript_psh (s : State) (v : List Transaction) : (s.setScript v).psh = s.psh := rfl
@[simp] theorem State.setScript_tcp (s : State) (v : List Transaction) : (s.setScript v).tcp = s.tcp := rfl
@[simp] theorem State.setScript_cmd (s : State) (v : List Transaction) : (s.setScript v).cmd = s.cmd := rfl
@[simp] theorem State.setScript_status (s : State) (v : List Transaction) : (s.setScript v).status = s.status := rfl
@[simp] theorem State.setScript_res (s : State) (v : List Transaction) : (s.setScript v).res = s.res := rfl
@[simp] theorem State.setScript_olen (s : State) (v : List Transaction) : (s.setScript v).olen = s.olen := rfl
@[simp] theorem State.setScript_mem (s : State) (v : List Transaction) : (s.setScript v).mem = s.mem := rfl
@[simp] theorem State.setScript_epoch (s : State) (v : List Transaction) : (s.setScript v).epoch = s.epoch := rfl
@[simp] theorem State.setScript_params (s : State) (v : List Transaction) : (s.setScript v).params = s.params := rfl
@[simp] theorem State.setScript_script (s : State) (v : List Transaction) : (s.setScript v).script = v := rfl
@[simp] theorem State.setScript_replies (s : State) (v : List Transaction) : (s.setScript v).replies = s.replies := rfl

/-! ### State.addReply -/

@[simp] theorem State.addReply_csu (s : State) (v : Reply) : (s.addReply v).csu = s.csu := rfl
@[simp] theorem State.addReply_args (s : State) (v : Reply) : (s.addReply v).args = s.args := rfl
@[simp] theorem State.addReply_ip (s : State) (v : Reply) : (s.addReply v).ip = s.ip := rfl
@[simp] theorem State.addReply_icmp (s : State) (v : Reply) : (s.addReply v).icmp = s.icmp := rfl
@[simp] theorem State.addReply_udp (s : State) (v : Reply) : (s.addReply v).udp = s.udp := rfl
@[simp] theorem State.addReply_psh (s : State) (v : Reply) : (s.addReply v).psh = s.psh := rfl
@[simp] theorem State.addReply_tcp (s : State) (v : Reply) : (s.addReply v).tcp = s.tcp := rfl
@[simp] theorem State.addReply_cmd (s : State) (v : Reply) : (s.addReply v).cmd = s.cmd := rfl
@[simp] theorem State.addReply_status (s : State) (v : Reply) : (s.addReply v).status = s.status := rfl
@[simp] theorem State.addReply_res (s : State) (v : Reply) : (s.addReply v).res = s.res := rfl
@[simp] theorem State.addReply_olen (s : State) (v : Reply) : (s.addReply v).olen = s.olen := rfl
@[simp] theorem State.addReply_mem (s : State) (v : Reply) : (s.addReply v).mem = s.mem := rfl
@[simp] theorem State.addReply_epoch (s : State) (v : Reply) : (s.addReply v).epoch = s.epoch := rfl
@[simp] theorem State.addReply_params (s : State) (v : Reply) : (s.addReply v).params = s.params := rfl
@[simp] theorem State.addReply_script (s : State) (v : Reply) : (s.addReply v).script = s.script := rfl
@[simp] theorem State.addReply_replies (s : State) (v : Reply) : (s.addReply v).replies = s.replies ++ [v] := rfl

/-! ### State.succeed -/

@[simp] theorem State.succeed_csu (s : State) : s.succeed.csu = s.csu := rfl
@[simp] theorem State.succeed_args (s : State) : s.succeed.args = s.args := rfl
@[simp] theorem State.succeed_ip (s : State) : s.succeed.ip = s.ip := rfl
@[simp] theorem State.succeed_icmp (s : State) : s.succeed.icmp = s.icmp := rfl
@[simp] theorem State.succeed_udp (s : State) : s.succeed.udp = s.udp := rfl
@[simp] theorem State.succeed_psh (s : State) : s.succeed.psh = s.psh := rfl
@[simp] theorem State.succeed_tcp (s : State) : s.succeed.tcp = s.tcp := rfl
@[simp] theorem State.succeed_cmd (s : State) : s.succeed.cmd = s.cmd := rfl
@[simp] theorem State.succeed_status (s : State) : s.succeed.status = s.status.afterSuccess := rfl
@[simp] theorem State.succeed_res (s : State) : s.succeed.res = s.res := rfl
@[simp] theorem State.succeed_olen (s : State) : s.succeed.olen = s.olen := rfl
@[simp] theorem State.succeed_mem (s : State) : s.succeed.mem = s.mem := rfl
@[simp] theorem State.succeed_epoch (s : State) : s.succeed.epoch = s.epoch := rfl
@[simp] theorem State.succeed_params (s : State) : s.succeed.params = s.params := rfl
@[simp] theorem State.succeed_script (s : State) : s.succeed.script = s.script := rfl
@[simp] theorem State.succeed_replies (s : State) : s.succeed.replies = s.replies := rfl

/-! ### State.raise -/

@[simp] theorem State.raise_csu (s : State) (e : CmdError) : (State.raise e s).csu = s.csu := rfl
@[simp] theorem State.raise_args (s : State) (e : CmdError) : (State.raise e s).args = s.args := rfl
@[simp] theorem State.raise_ip (s : State) (e : CmdError) : (State.raise e s).ip = s.ip := rfl
@[simp] theorem State.raise_icmp (s : State) (e : CmdError) : (State.raise e s).icmp = s.icmp := rfl
@[simp] theorem State.raise_udp (s : State) (e : CmdError) : (State.raise e s).udp = s.udp := rfl
@[simp] theorem State.raise_psh (s : State) (e : CmdError) : (State.raise e s).psh = s.psh := rfl
@[simp] theorem State.raise_tcp (s : State) (e : CmdError) : (State.raise e s).tcp = s.tcp := rfl
@[simp] theorem State.raise_cmd (s : State) (e : CmdError) : (State.raise e s).cmd = s.cmd := rfl
@[simp] theorem State.raise_status (s : State) (e : CmdError) : (State.raise e s).status = s.status.afterError e := rfl
@[simp] theorem State.raise_res (s : State) (e : CmdError) : (State.raise e s).res = s.res := rfl
@[simp] theorem State.raise_olen (s : State) (e : CmdError) : (State.raise e s).olen = s.olen := rfl
@[simp] theorem State.raise_mem (s : State) (e : CmdError) : (State.raise e s).mem = s.mem := rfl
@[simp] theorem State.raise_epoch (s : State) (e : CmdError) : (State.raise e s).epoch = s.epoch := rfl
@[simp] theorem State.raise_params (s : State) (e : CmdError) : (State.raise e s).params = s.params := rfl
@[simp] theorem State.raise_script (s : State) (e : CmdError) : (State.raise e s).script = s.script := rfl
@[simp] theorem State.raise_replies (s : State) (e : CmdError) : (State.raise e s).replies = s.replies := rfl

/-! ### State.memWrite and State.emit -/

@[simp] theorem State.memWrite_csu (s : State) (a : Nat) (bs : List Byte) : (s.memWrite a bs).csu = s.csu := rfl
@[simp] theorem State.memWrite_args (s : State) (a : Nat) (bs : List Byte) : (s.memWrite a bs).args = s.args := rfl
@[simp] theorem State.memWrite_ip (s : State) (a : Nat) (bs : List Byte) : (s.memWrite a bs).ip = s.ip := rfl
@[simp] theorem State.memWrite_icmp (s : State) (a : Nat) (bs : List Byte) : (s.memWrite a bs).icmp = s.icmp := rfl
@[simp] theorem State.memWrite_udp (s : State) (a : Nat) (bs : List Byte) : (s.memWrite a bs).udp = s.udp := rfl
@[simp] theorem State.memWrite_psh (s : State) (a : Nat) (bs : List Byte) : (s.memWrite a bs).psh = s.psh := rfl
@[simp] theorem State.memWrite_tcp (s : State) (a : Nat) (bs : List Byte) : (s.memWrite a bs).tcp = s.tcp := rfl
@[simp] theorem State.memWrite_cmd (s : State) (a : Nat) (bs : List Byte) : (s.memWrite a bs).cmd = s.cmd := rfl
@[simp] theorem State.memWrite_status (s : State) (a : Nat) (bs : List Byte) : (s.memWrite a bs).status = s.status := rfl
@[simp] theorem State.memWrite_res (s : State) (a : Nat) (bs : List Byte) : (s.memWrite a bs).res = s.res := rfl
@[simp] theorem State.memWrite_olen (s : State) (a : Nat) (bs : List Byte) : (s.memWrite a bs).olen = s.olen := rfl
@[simp] theorem State.memWrite_mem (s : State) (a : Nat) (bs : List Byte) : (s.memWrite a bs).mem = s.mem.putBytes a bs := rfl
@[simp] theorem State.memWrite_epoch (s : State) (a : Nat) (bs : List Byte) : (s.memWrite a bs).epoch = s.epoch := rfl
@[simp] theorem State.memWrite_params (s : State) (a : Nat) (bs : List Byte) : (s.memWrite a bs).params = s.params := rfl
@[simp] theorem State.memWrite_script (s : State) (a : Nat) (bs : List Byte) : (s.memWrite a bs).script = s.script := rfl
@[simp] theorem State.memWrite_replies (s : State) (a : Nat) (bs : List Byte) : (s.memWrite a bs).replies = s.replies := rfl

@[simp] theorem State.emit_csu (s : State) (a : Nat) (bs : List Byte) : (s.emit a bs).csu = s.csu := rfl
@[simp] theorem State.emit_args (s : State) (a : Nat) (bs : List Byte) : (s.emit a bs).args = s.args := rfl
@[simp] theorem State.emit_ip (s : State) (a : Nat) (bs : List Byte) : (s.emit a bs).ip = s.ip := rfl
@[simp] theorem State.emit_icmp (s : State) (a : Nat) (bs : List Byte) : (s.emit a bs).icmp = s.icmp := rfl
@[simp] theorem State.emit_udp (s : State) (a : Nat) (bs : List Byte) : (s.emit a bs).udp = s.udp := rfl
@[simp] theorem State.emit_psh (s : State) (a : Nat) (bs : List Byte) : (s.emit a bs).psh = s.psh := rfl
@[simp] theorem State.emit_tcp (s : State) (a : Nat) (bs : List Byte) : (s.emit a bs).tcp = s.tcp := rfl
@[simp] theorem State.emit_cmd (s : State) (a : Nat) (bs : List Byte) : (s.emit a bs).cmd = s.cmd := rfl
@[simp] theorem State.emit_status (s : State) (a : Nat) (bs : List Byte) : (s.emit a bs).status = s.status := rfl
@[simp] theorem State.emit_res (s : State) (a : Nat) (bs : List Byte) : (s.emit a bs).res = s.res := rfl
@[simp] theorem State.emit_olen (s : State) (a : Nat) (bs : List Byte) : (s.emit a bs).olen = olenWord bs.length := rfl
@[simp] theorem State.emit_mem (s : State) (a : Nat) (bs : List Byte) : (s.emit a bs).mem = s.mem.putBytes a bs := rfl
@[simp] theorem State.emit_epoch (s : State) (a : Nat) (bs : List Byte) : (s.emit a bs).epoch = s.epoch := rfl
@[simp] theorem State.emit_params (s : State) (a : Nat) (bs : List Byte) : (s.emit a bs).params = s.params := rfl
@[simp] theorem State.emit_script (s : State) (a : Nat) (bs : List Byte) : (s.emit a bs).script = s.script := rfl
@[simp] theorem State.emit_replies (s : State) (a : Nat) (bs : List Byte) : (s.emit a bs).replies = s.replies := rfl

/-! ### State.resetBlock and State.withCommand -/

@[simp] theorem State.resetBlock_csu (s : State) : s.resetBlock.csu = State.reset.csu := rfl
@[simp] theorem State.resetBlock_args (s : State) : s.resetBlock.args = State.reset.args := rfl
@[simp] theorem State.resetBlock_ip (s : State) : s.resetBlock.ip = State.reset.ip := rfl
@[simp] theorem State.resetBlock_icmp (s : State) : s.resetBlock.icmp = State.reset.icmp := rfl
@[simp] theorem State.resetBlock_udp (s : State) : s.resetBlock.udp = State.reset.udp := rfl
@[simp] theorem State.resetBlock_psh (s : State) : s.resetBlock.psh = State.reset.psh := rfl
@[simp] theorem State.resetBlock_tcp (s : State) : s.resetBlock.tcp = State.reset.tcp := rfl
@[simp] theorem State.resetBlock_cmd (s : State) : s.resetBlock.cmd = State.reset.cmd := rfl
@[simp] theorem State.resetBlock_status (s : State) : s.resetBlock.status = State.reset.status := rfl
@[simp] theorem State.resetBlock_res (s : State) : s.resetBlock.res = State.reset.res := rfl
@[simp] theorem State.resetBlock_olen (s : State) : s.resetBlock.olen = State.reset.olen := rfl
@[simp] theorem State.resetBlock_mem (s : State) : s.resetBlock.mem = State.reset.mem := rfl
@[simp] theorem State.resetBlock_epoch (s : State) : s.resetBlock.epoch = s.epoch + 1 := rfl
@[simp] theorem State.resetBlock_params (s : State) : s.resetBlock.params = s.params := rfl
@[simp] theorem State.resetBlock_script (s : State) : s.resetBlock.script = s.script := rfl
@[simp] theorem State.resetBlock_replies (s : State) : s.resetBlock.replies = s.replies := rfl

@[simp] theorem State.withCommand_csu (s : State) (w : Word) : (s.withCommand w).csu = s.csu := rfl
@[simp] theorem State.withCommand_args (s : State) (w : Word) : (s.withCommand w).args = s.args := rfl
@[simp] theorem State.withCommand_ip (s : State) (w : Word) : (s.withCommand w).ip = s.ip := rfl
@[simp] theorem State.withCommand_icmp (s : State) (w : Word) : (s.withCommand w).icmp = s.icmp := rfl
@[simp] theorem State.withCommand_udp (s : State) (w : Word) : (s.withCommand w).udp = s.udp := rfl
@[simp] theorem State.withCommand_psh (s : State) (w : Word) : (s.withCommand w).psh = s.psh := rfl
@[simp] theorem State.withCommand_tcp (s : State) (w : Word) : (s.withCommand w).tcp = s.tcp := rfl
@[simp] theorem State.withCommand_cmd (s : State) (w : Word) : (s.withCommand w).cmd = s.cmd := rfl
@[simp] theorem State.withCommand_status (s : State) (w : Word) : (s.withCommand w).status = s.status := rfl
@[simp] theorem State.withCommand_res (s : State) (w : Word) : (s.withCommand w).res = s.res := rfl
@[simp] theorem State.withCommand_olen (s : State) (w : Word) : (s.withCommand w).olen = s.olen := rfl
@[simp] theorem State.withCommand_mem (s : State) (w : Word) : (s.withCommand w).mem = s.mem := rfl
@[simp] theorem State.withCommand_epoch (s : State) (w : Word) : (s.withCommand w).epoch = s.epoch := rfl
@[simp] theorem State.withCommand_params (s : State) (w : Word) : (s.withCommand w).params = s.params := rfl
@[simp] theorem State.withCommand_script (s : State) (w : Word) : (s.withCommand w).script = .regWrite Reg.cmd.offset w :: s.script := rfl
@[simp] theorem State.withCommand_replies (s : State) (w : Word) : (s.withCommand w).replies = s.replies := rfl

/-! ### Status -/

@[simp] theorem Status.afterSuccess_err (st : Status) : st.afterSuccess.err = none := rfl
@[simp] theorem Status.afterSuccess_sticky (st : Status) : st.afterSuccess.sticky = st.sticky := rfl
@[simp] theorem Status.afterSuccess_halt (st : Status) : st.afterSuccess.halt = st.halt := rfl
@[simp] theorem Status.afterError_err (e : CmdError) (st : Status) : (Status.afterError e st).err = some e := rfl
@[simp] theorem Status.afterError_sticky (e : CmdError) (st : Status) : (Status.afterError e st).sticky = true := rfl
@[simp] theorem Status.afterError_halt (e : CmdError) (st : Status) : (Status.afterError e st).halt = (st.halt || e.halts) := rfl

end Sys2Proof.Machine
end

