-- ==== Sys2Proof/Laws/Memory.lean ====
section
/-! SUPPORT. PBUF: a read after a write, the bytes a write leaves alone, and the canonical form, which every memory operation
keeps. -/

namespace Sys2Proof.Machine

/-! ### One byte -/

theorem Memory.find_put_same (m : Memory) (a : Nat) (b : Byte) : (m.put a b).find a = some b := by
  induction m with
  | nil => simp [Memory.put, Memory.find]
  | cons c rest ih =>
    simp only [Memory.put]
    split
    · simp [Memory.find]
    · split
      · simp [Memory.find]
      · simp [Memory.find, *]

theorem Memory.find_put_other (m : Memory) (a x : Nat) (b : Byte) (h : x ≠ a) : (m.put a b).find x = m.find x := by
  induction m with
  | nil => simp [Memory.put, Memory.find, h]
  | cons c rest ih =>
    simp only [Memory.put]
    split
    · simp [Memory.find, h]
    · split
      · rename_i hac
        simp [Memory.find, h, ← hac]
      · simp [Memory.find, ih]

theorem Memory.find_put (m : Memory) (a x : Nat) (b : Byte) :
    (m.put a b).find x = if x = a then some b else m.find x := by
  split
  · subst x
    exact m.find_put_same a b
  · exact m.find_put_other a x b ‹_›

/-! ### A byte list -/

/-- What a write of a byte list leaves listed: its own bytes inside its range, everything else as before. -/
theorem Memory.find_putBytes (m : Memory) (a x : Nat) (bs : List Byte) :
    (m.putBytes a bs).find x = if a ≤ x ∧ x < a + bs.length then bs[x - a]? else m.find x := by
  induction bs generalizing m a with
  | nil => simp [Memory.putBytes]
  | cons b bs ih =>
    rw [Memory.putBytes, ih, Memory.find_put, List.length_cons]
    by_cases hx : x = a
    · subst hx
      have h1 : ¬ (x + 1 ≤ x ∧ x < x + 1 + bs.length) := by omega
      have h2 : x ≤ x ∧ x < x + (bs.length + 1) := by omega
      simp only [h1, h2, if_true, if_false, and_self, Nat.sub_self, List.getElem?_cons_zero]
    · by_cases h : a + 1 ≤ x ∧ x < a + 1 + bs.length
      · have h2 : a ≤ x ∧ x < a + (bs.length + 1) := by omega
        have h3 : x - a = (x - (a + 1)) + 1 := by omega
        simp only [h, h2, if_true, and_self]
        rw [h3, List.getElem?_cons_succ]
      · have h2 : ¬ (a ≤ x ∧ x < a + (bs.length + 1)) := by omega
        simp only [h, h2, hx, if_false]

/-! ### The canonical form -/

theorem Memory.risesAbove_put (m : Memory) (lo a : Nat) (b : Byte) (hm : Memory.risesAbove lo m = true) (h : lo < a) :
    Memory.risesAbove lo (m.put a b) = true := by
  induction m generalizing lo with
  | nil => simp [Memory.put, Memory.risesAbove, h]
  | cons c rest ih =>
    simp only [Memory.risesAbove, Bool.and_eq_true, decide_eq_true_eq] at hm
    simp only [Memory.put]
    split
    · simp [Memory.risesAbove, *]
    · split
      · rename_i hac
        simp only [Memory.risesAbove, Bool.and_eq_true, decide_eq_true_eq]
        exact ⟨h, hac ▸ hm.2⟩
      · simp only [Memory.risesAbove, Bool.and_eq_true, decide_eq_true_eq]
        exact ⟨hm.1, ih c.1 hm.2 (by omega)⟩

theorem Memory.mem_put (m : Memory) (a : Nat) (b : Byte) (d : Host.Cell) (h : d ∈ m.put a b) : d = (a, b) ∨ d ∈ m := by
  induction m with
  | nil => simpa [Memory.put] using h
  | cons c rest ih =>
    simp only [Memory.put] at h
    split at h
    · simpa using h
    · split at h
      · simp only [List.mem_cons] at h ⊢
        tauto
      · simp only [List.mem_cons] at h ⊢
        tauto

/-- Rising from the first cell on is rising above any smaller address. -/
theorem Memory.wf_iff (size : Nat) (m : Memory) :
    Memory.wf size m = true ↔
      (∀ c rest, m = c :: rest → Memory.risesAbove c.1 rest = true) ∧ ∀ d ∈ m, d.1 < size := by
  cases m with
  | nil => simp [Memory.wf]
  | cons c rest => simp [Memory.wf, List.all_eq_true]

/-- Writing a byte inside the buffer keeps the canonical form. -/
theorem Memory.wf_put (size : Nat) (m : Memory) (a : Nat) (b : Byte) (hm : m.wf size = true) (h : a < size) :
    (m.put a b).wf size = true := by
  obtain ⟨hr, hs⟩ := (Memory.wf_iff size m).1 hm
  refine (Memory.wf_iff size _).2 ⟨?_, ?_⟩
  · cases m with
    | nil =>
      intro c rest e
      simp only [Memory.put, List.cons.injEq] at e
      simp [← e.2, Memory.risesAbove]
    | cons c rest =>
      have hcr := hr c rest rfl
      intro c' rest' e
      simp only [Memory.put] at e
      split at e
      · simp only [List.cons.injEq] at e
        obtain ⟨rfl, rfl⟩ := e
        simp [Memory.risesAbove, *]
      · split at e
        · rename_i hac
          simp only [List.cons.injEq] at e
          obtain ⟨rfl, rfl⟩ := e
          exact hac ▸ hcr
        · simp only [List.cons.injEq] at e
          obtain ⟨rfl, rfl⟩ := e
          exact Memory.risesAbove_put rest c.1 a b hcr (by omega)
  · intro d hd
    rcases m.mem_put a b d hd with rfl | hd
    · exact h
    · exact hs d hd

/-- Writing a byte list inside the buffer keeps the canonical form. -/
theorem Memory.wf_putBytes (size : Nat) (m : Memory) (a : Nat) (bs : List Byte) (hm : m.wf size = true)
    (h : bs = [] ∨ a + bs.length ≤ size) : (m.putBytes a bs).wf size = true := by
  induction bs generalizing m a with
  | nil => exact hm
  | cons b bs ih =>
    simp only [reduceCtorEq, List.length_cons, false_or] at h
    exact ih (m.put a b) (a + 1) (m.wf_put size a b hm (by omega)) (by omega)

theorem Memory.wf_empty (size : Nat) : Memory.wf size [] = true := rfl

/-! ### PBUF -/

/-- The range check as arithmetic (R57). -/
theorem State.inRange_iff (s : State) (a n : Nat) : s.inRange a n = true ↔ n = 0 ∨ a + n ≤ s.params.pbufSize := by
  simp [State.inRange]

/-- The bytes of PBUF after MemWrite (R15): those written, and everything else as before. -/
theorem State.pbufByte_memWrite (s : State) (a x : Nat) (bs : List Byte) :
    (s.memWrite a bs).pbufByte x = if a ≤ x ∧ x < a + bs.length then bs.getD (x - a) 0#8 else s.pbufByte x := by
  simp only [State.pbufByte, State.memWrite_mem, State.memWrite_epoch, Memory.find_putBytes]
  by_cases h : a ≤ x ∧ x < a + bs.length
  · have hx : x - a < bs.length := by omega
    simp [h, hx]
  · simp [h]

theorem State.pbufByte_emit (s : State) (a x : Nat) (bs : List Byte) :
    (s.emit a bs).pbufByte x = if a ≤ x ∧ x < a + bs.length then bs.getD (x - a) 0#8 else s.pbufByte x :=
  s.pbufByte_memWrite a x bs

/-- Bytes outside the range written are unchanged. -/
theorem State.pbufByte_emit_outside (s : State) (a x : Nat) (bs : List Byte) (h : x < a ∨ a + bs.length ≤ x) :
    (s.emit a bs).pbufByte x = s.pbufByte x := by
  rw [State.pbufByte_emit, if_neg (by omega)]

@[simp] theorem State.memRead_length (s : State) (a n : Nat) : (s.memRead a n).length = n := by
  induction n generalizing a with
  | zero => rfl
  | succ n ih => simp [State.memRead, ih]

theorem State.memRead_getElem? (s : State) (a n i : Nat) (h : i < n) : (s.memRead a n)[i]? = some (s.pbufByte (a + i)) := by
  induction n generalizing a i with
  | zero => omega
  | succ n ih =>
    cases i with
    | zero => simp [State.memRead]
    | succ i =>
      simp only [State.memRead, List.getElem?_cons_succ]
      rw [ih (a + 1) i (by omega)]
      congr 2
      omega

/-- MemRead sees only the bytes of its range. -/
theorem State.memRead_congr (s t : State) (a n : Nat) (h : ∀ x, a ≤ x → x < a + n → s.pbufByte x = t.pbufByte x) :
    s.memRead a n = t.memRead a n := by
  induction n generalizing a with
  | zero => rfl
  | succ n ih =>
    simp only [State.memRead]
    rw [h a (by omega) (by omega), ih (a + 1) fun x h1 h2 => h x (by omega) (by omega)]

/-- Reading back what MemWrite wrote. -/
theorem State.memRead_emit (s : State) (a : Nat) (bs : List Byte) : (s.emit a bs).memRead a bs.length = bs := by
  apply List.ext_getElem?
  intro i
  by_cases h : i < bs.length
  · rw [State.memRead_getElem? _ _ _ _ h, State.pbufByte_emit, if_pos (by omega)]
    simp [h]
  · rw [List.getElem?_eq_none (by simp; omega), List.getElem?_eq_none (by omega)]

theorem State.memRead_append (s : State) (a m n : Nat) : s.memRead a (m + n) = s.memRead a m ++ s.memRead (a + m) n := by
  induction m generalizing a with
  | zero => simp [State.memRead]
  | succ m ih =>
    rw [Nat.add_right_comm, State.memRead, State.memRead, ih (a + 1), List.cons_append]
    congr 3
    omega

/-- MemRead after an update that leaves PBUF alone. -/
theorem State.memRead_of_mem_eq (s t : State) (hm : t.mem = s.mem) (he : t.epoch = s.epoch) (a n : Nat) :
    t.memRead a n = s.memRead a n :=
  State.memRead_congr t s a n fun x _ _ => by simp [State.pbufByte, hm, he]

end Sys2Proof.Machine
end

