-- ==== Sys2Proof/Laws/Ops.lean ====
section
/-! SUPPORT. How a command ends: what the checks, the error entry and finalize's assertion can do, said once. -/

namespace Sys2Proof.Machine

/-! ### The checks (R269) -/

theorem firstFailure_none_iff (checks : List Check) : firstFailure checks = none ↔ ∀ c ∈ checks, c.1 = true := by
  induction checks with
  | nil => simp [firstFailure]
  | cons c rest ih =>
    simp only [firstFailure, List.mem_cons, forall_eq_or_imp]
    split <;> simp [*]

/-- The error a command reports is that of a check that fails. -/
theorem firstFailure_mem (checks : List Check) (e : CmdError) (h : firstFailure checks = some e) :
    (false, e) ∈ checks := by
  induction checks with
  | nil => simp [firstFailure] at h
  | cons c rest ih =>
    simp only [firstFailure] at h
    split at h
    · exact List.mem_cons_of_mem _ (ih h)
    · rename_i hc
      rcases c with ⟨b, e'⟩
      simp only [Bool.not_eq_true, Option.some.injEq] at hc h
      simp [hc, h]

@[simp] theorem firstFailure_nil : firstFailure [] = none := rfl

@[simp] theorem firstFailure_cons_true (e : CmdError) (rest : List Check) :
    firstFailure ((true, e) :: rest) = firstFailure rest := rfl

@[simp] theorem firstFailure_cons_false (e : CmdError) (rest : List Check) :
    firstFailure ((false, e) :: rest) = some e := rfl

/-! ### How a command ends -/

/-- A command without an assertion is one whose assertion holds. -/
theorem State.command_eq_finalizing (s : State) (checks : List Check) (effect : State) :
    s.command checks effect = s.finalizing checks effect true := rfl

/-- Everything a command can end in: its effect, the failed assertion on top of its effect, or the first failing check's error
on the state before. -/
theorem State.finalizing_cases (s : State) (checks : List Check) (effect : State) (verified : Bool) :
    (firstFailure checks = none ∧ verified = true ∧ s.finalizing checks effect verified = effect.succeed) ∨
    (firstFailure checks = none ∧ verified = false ∧
      s.finalizing checks effect verified = effect.raise .checksumConsistencyViolation) ∨
    (∃ e, firstFailure checks = some e ∧ s.finalizing checks effect verified = s.raise e) := by
  unfold State.finalizing
  split
  · rename_i h
    cases verified <;> simp [State.assertVerified, h]
  · rename_i e h
    exact Or.inr (Or.inr ⟨e, h, rfl⟩)

theorem State.command_cases (s : State) (checks : List Check) (effect : State) :
    (firstFailure checks = none ∧ s.command checks effect = effect.succeed) ∨
    (∃ e, firstFailure checks = some e ∧ s.command checks effect = s.raise e) := by
  rcases s.finalizing_cases checks effect true with ⟨h, -, e⟩ | ⟨-, h, -⟩ | h
  · exact Or.inl ⟨h, e⟩
  · cases h
  · exact Or.inr h

theorem State.command_succeeds (s : State) (checks : List Check) (effect : State) (h : ∀ c ∈ checks, c.1 = true) :
    s.command checks effect = effect.succeed := by
  simp [State.command, (firstFailure_none_iff checks).2 h]

theorem State.command_raises (s : State) (checks : List Check) (effect : State) (e : CmdError)
    (h : firstFailure checks = some e) : s.command checks effect = s.raise e := by
  simp [State.command, h]

theorem State.finalizing_succeeds (s : State) (checks : List Check) (effect : State) (h : ∀ c ∈ checks, c.1 = true) :
    s.finalizing checks effect true = effect.succeed := by
  simp [State.finalizing, State.assertVerified, (firstFailure_none_iff checks).2 h]

theorem State.finalizing_raises (s : State) (checks : List Check) (effect : State) (v : Bool) (e : CmdError)
    (h : firstFailure checks = some e) : s.finalizing checks effect v = s.raise e := by
  simp [State.finalizing, h]

/-! ### OLEN -/

/-- Where 32 bits hold the count, OLEN is the count (R34). -/
theorem olenWord_toNat (n : Nat) (h : n < 2 ^ 32) : (olenWord n).toNat = n := by
  simp only [olenWord, h, if_true, BitVec.toNat_ofNat]
  omega

end Sys2Proof.Machine
end

