-- ==== Sys2Proof/Laws/Exec.lean ====
section
/-! SUPPORT. What a command can do, said once for all 22: its checks, its effect, and the assertion it ends with, so that a
proof over all commands never unfolds a meaning. -/

namespace Sys2Proof.Machine

/-! ### The TCP bank and the packets' lengths -/

/-- What ENC.TCP's format check says (R222). -/
theorem tcpFormatOk_iff (t : TcpBank) : tcpFormatOk t = true ↔
    t.optLen.toNat ≤ 40 ∧ t.optLen.toNat % 4 = 0 ∧ dataOffset t.hdr.off = 20 + t.optLen.toNat := by
  simp only [tcpFormatOk, Bool.and_eq_true, decide_eq_true_eq, beq_iff_eq, and_assoc]
  exact Iff.rfl

/-- The data offset as arithmetic (R89). -/
theorem dataOffset_eq (off : Byte) : dataOffset off = 4 * (off.toNat / 16) := by
  have := off.isLt
  simp only [dataOffset, BitVec.extractLsb'_toNat, Nat.shiftRight_eq_div_pow]
  omega

theorem TcpBank.options_length (t : TcpBank) (h : t.optLen.toNat ≤ 40) : t.options.length = t.optLen.toNat := by
  simp [TcpBank.options]
  omega

theorem encTcpLen_eq (t : TcpBank) : encTcpLen t = 20 + t.optLen.toNat + t.dlen.toNat := rfl

theorem encTcpBytes_length (s : State) (h : s.tcp.optLen.toNat ≤ 40) : (encTcpBytes s).length = encTcpLen s.tcp := by
  simp only [encTcpBytes, List.length_append, encodeTcpHeader_length, s.tcp.options_length h, State.memRead_length,
    encTcpLen_eq]

theorem pktLen_eq (s : State) : pktLen s = 28 + s.args.pktPayloadLen := rfl

theorem pktBytes_length (s : State) : (pktBytes s).length = pktLen s := by
  simp only [pktBytes, pktPayload, List.length_append, encodeIp_length, encodeUdp_length, State.memRead_length, pktLen_eq]

/-! ### Every command as checks, effect and assertion -/

/-- The checks each command makes, in order (R269). -/
def checksOf (s : State) : Instr → List Check
  | .ckAdd => sourceChecks s
  | .ckSum => sourceChecks s
  | .encIp => [(s.inRange s.args.dstAddr 20, .bufferRange)]
  | .encIcmp => [(s.inRange s.args.dstAddr 8, .bufferRange)]
  | .encUdp => [(s.inRange s.args.dstAddr 8, .bufferRange)]
  | .encPsh => [(s.inRange s.args.dstAddr 12, .bufferRange)]
  | .encTcp => encTcpChecks s
  | .decIp => decChecks s 20
  | .decIcmp => decChecks s 8
  | .decUdp => decChecks s 8
  | .decPsh => decChecks s 12
  | .decTcp => decTcpChecks s
  | .bldIp => [(ipLengthFits s.args.ipPayloadLen, .lengthOverflow)]
  | .udpPkt => pktChecks s
  | .nop => []
  | .ckClr => []
  | .ckGet => []
  | .finIp => []
  | .finIcmp => []
  | .bldIcmp => []
  | .bldPsh => []
  | .bldTcp => []

/-- The state each command's writes leave, STATUS apart (R41). -/
def effectOf (s : State) : Instr → State
  | .nop => s
  | .ckClr => s.setCsu Csu.clear
  | .ckAdd => s.setCsu (absorb s.csu (sourceBytes s))
  | .ckGet => s.setRes (~~~s.csu.final)
  | .ckSum => (s.setCsu (absorb Csu.clear (sourceBytes s))).setRes (compute (sourceBytes s))
  | .encIp => s.emit s.args.dstAddr (encodeIp s.ip)
  | .encIcmp => s.emit s.args.dstAddr (encodeIcmp s.icmp)
  | .encUdp => s.emit s.args.dstAddr (encodeUdp s.udp)
  | .encPsh => s.emit s.args.dstAddr (encodePsh s.psh)
  | .encTcp => s.emit s.args.dstAddr (encTcpBytes s)
  | .decIp => s.setIp (decodeIp (s.memRead s.args.srcAddr 20))
  | .decIcmp => s.setIcmp (decodeIcmp (s.memRead s.args.srcAddr 8))
  | .decUdp => s.setUdp (decodeUdp (s.memRead s.args.srcAddr 8))
  | .decPsh => s.setPsh (decodePsh (s.memRead s.args.srcAddr 12))
  | .decTcp => s.setTcp (decTcpBank s)
  | .finIp => s.setIp (finalizeIp s.ip)
  | .finIcmp => s.setIcmp (finalizeIcmp s.icmp)
  | .bldIp => s.setIp (bldIpHeader s)
  | .bldIcmp => s.setIcmp (buildIcmp s.params s.args.icmpSeq)
  | .udpPkt => s.emit s.args.pktOut (pktBytes s)
  | .bldPsh => s.setPsh (pseudoOf s.ip s.args.pshLen)
  | .bldTcp => s.setTcp (bldTcpBank s.params s.args)

/-- Whether the assertion a command ends with holds; most commands end with none (R152, R153, R172, R173). -/
def verifiedOf (s : State) : Instr → Bool
  | .finIp => verifies (encodeIp (finalizeIp s.ip))
  | .finIcmp => verifies (encodeIcmp (finalizeIcmp s.icmp))
  | .bldIp => verifies (encodeIp (bldIpHeader s))
  | .bldIcmp => verifies (encodeIcmp (buildIcmp s.params s.args.icmpSeq))
  | .nop => true
  | .ckClr => true
  | .ckAdd => true
  | .ckGet => true
  | .ckSum => true
  | .encIp => true
  | .encIcmp => true
  | .encUdp => true
  | .encPsh => true
  | .encTcp => true
  | .decIp => true
  | .decIcmp => true
  | .decUdp => true
  | .decPsh => true
  | .decTcp => true
  | .udpPkt => true
  | .bldPsh => true
  | .bldTcp => true

/-- Every command is checks, then an effect, then an assertion; it always answers a next state. -/
theorem exec_eq (i : Instr) (s : State) :
    exec i s = .next (s.finalizing (checksOf s i) (effectOf s i) (verifiedOf s i)) := by
  cases i with
  | encIp => simp only [exec, execEncIp, encFixed, encodeIp_length, State.command_eq_finalizing, checksOf, effectOf, verifiedOf]
  | encIcmp =>
    simp only [exec, execEncIcmp, encFixed, encodeIcmp_length, State.command_eq_finalizing, checksOf, effectOf, verifiedOf]
  | encUdp =>
    simp only [exec, execEncUdp, encFixed, encodeUdp_length, State.command_eq_finalizing, checksOf, effectOf, verifiedOf]
  | encPsh =>
    simp only [exec, execEncPsh, encFixed, encodePsh_length, State.command_eq_finalizing, checksOf, effectOf, verifiedOf]
  | _ => rfl

/-- Everything exec can answer. -/
theorem exec_cases {i : Instr} {s t : State} (h : exec i s = .next t) :
    (firstFailure (checksOf s i) = none ∧ verifiedOf s i = true ∧ t = (effectOf s i).succeed) ∨
    (firstFailure (checksOf s i) = none ∧ verifiedOf s i = false ∧
      t = (effectOf s i).raise .checksumConsistencyViolation) ∨
    (∃ e, firstFailure (checksOf s i) = some e ∧ t = s.raise e) := by
  rw [exec_eq] at h
  injection h with h
  subst h
  exact State.finalizing_cases _ _ _ _

/-- The parts of the state no command writes (R22, R31, R38, R41). -/
theorem effectOf_keeps (i : Instr) (s : State) :
    (effectOf s i).args = s.args ∧ (effectOf s i).cmd = s.cmd ∧ (effectOf s i).status = s.status ∧
    (effectOf s i).epoch = s.epoch ∧ (effectOf s i).params = s.params ∧ (effectOf s i).script = s.script ∧
    (effectOf s i).replies = s.replies := by
  cases i <;> simp [effectOf]

/-- The parts of the state no command writes, whatever it answers. -/
theorem exec_keeps {i : Instr} {s t : State} (h : exec i s = .next t) :
    t.args = s.args ∧ t.cmd = s.cmd ∧ t.epoch = s.epoch ∧ t.params = s.params ∧ t.script = s.script ∧
    t.replies = s.replies := by
  obtain ⟨h1, h2, -, h4, h5, h6, h7⟩ := effectOf_keeps i s
  rcases exec_cases h with ⟨-, -, rfl⟩ | ⟨-, -, rfl⟩ | ⟨e, -, rfl⟩ <;> simp [*]

end Sys2Proof.Machine
end

