-- ==== Sys2Proof/Laws/PerInstr.lean ====
section
/-! SUPPORT. The per-instruction family Encoding: the word of each command decodes to it on an instance that has it, and no
command of an absent unit decodes. -/

namespace Sys2Proof.Laws.Encoding

/-- The command's word is decoded as the command exactly where the instance has it (R74, R75). -/
def Statement (i : Instr) : Prop := ∀ hasTcp, decode hasTcp (encode i) = .ok i ↔ i.wellFormed hasTcp = true

theorem nop : Statement .nop := fun b => by cases b <;> decide
theorem ckClr : Statement .ckClr := fun b => by cases b <;> decide
theorem ckAdd : Statement .ckAdd := fun b => by cases b <;> decide
theorem ckGet : Statement .ckGet := fun b => by cases b <;> decide
theorem ckSum : Statement .ckSum := fun b => by cases b <;> decide
theorem encIp : Statement .encIp := fun b => by cases b <;> decide
theorem encIcmp : Statement .encIcmp := fun b => by cases b <;> decide
theorem encUdp : Statement .encUdp := fun b => by cases b <;> decide
theorem encPsh : Statement .encPsh := fun b => by cases b <;> decide
theorem encTcp : Statement .encTcp := fun b => by cases b <;> decide
theorem decIp : Statement .decIp := fun b => by cases b <;> decide
theorem decIcmp : Statement .decIcmp := fun b => by cases b <;> decide
theorem decUdp : Statement .decUdp := fun b => by cases b <;> decide
theorem decPsh : Statement .decPsh := fun b => by cases b <;> decide
theorem decTcp : Statement .decTcp := fun b => by cases b <;> decide
theorem finIp : Statement .finIp := fun b => by cases b <;> decide
theorem finIcmp : Statement .finIcmp := fun b => by cases b <;> decide
theorem bldIp : Statement .bldIp := fun b => by cases b <;> decide
theorem bldIcmp : Statement .bldIcmp := fun b => by cases b <;> decide
theorem udpPkt : Statement .udpPkt := fun b => by cases b <;> decide
theorem bldPsh : Statement .bldPsh := fun b => by cases b <;> decide
theorem bldTcp : Statement .bldTcp := fun b => by cases b <;> decide

end Sys2Proof.Laws.Encoding
end

