-- ==== Sys2Proof/Laws/Step.lean ====
section
/-! SUPPORT. What a step can do: one host transaction, by its kind. -/

namespace Sys2Proof.Machine

theorem step_nil {s : State} (h : s.script = []) : step s = .fault .scriptEnded := by
  simp [step, advance, h]

theorem step_cons {s : State} {x : Transaction} {rest : List Transaction} (h : s.script = x :: rest) :
    step s = transact x (s.setScript rest) := by
  simp [step, advance, h]

/-- CMD stands at offset 0 of every instance (R36). -/
theorem regAt_cmd (hasTcp : Bool) : regAt hasTcp Reg.cmd.offset = some .cmd := rfl

theorem transact_command (w : Word) (s : State) : transact (.regWrite Reg.cmd.offset w) s = issueCommand w s := rfl

/-- Everything the write of a command word can do (R70): be ignored, run the command, or raise IllegalCommand. -/
theorem issueCommand_cases (w : Word) (s : State) :
    (s.status.halt = true ∧ issueCommand w s = .next (s.setCmd w)) ∨
    (s.status.halt = false ∧ ∃ i, decode s.params.hasTcp w = .ok i ∧ issueCommand w s = exec i (s.setCmd w)) ∨
    (s.status.halt = false ∧ (∃ r, decode s.params.hasTcp w = .error r) ∧
      issueCommand w s = .next ((s.setCmd w).raise .illegalCommand)) := by
  unfold issueCommand
  split
  · exact Or.inl ⟨‹_›, rfl⟩
  · rename_i hh
    have hf : s.status.halt = false := by simpa using hh
    split
    · exact Or.inr (Or.inl ⟨hf, _, ‹_›, rfl⟩)
    · exact Or.inr (Or.inr ⟨hf, ⟨_, ‹_›⟩, rfl⟩)

/-- Everything a transaction that answers a next state can be. -/
theorem transact_cases {x : Transaction} {s t : State} (h : transact x s = .next t) :
    (∃ w, issueCommand w s = .next t) ∨
    (∃ r v, t = RwReg.write s v r) ∨
    (∃ v, t = s.addReply v) ∨
    (∃ a b, a < s.params.pbufSize ∧ t = s.memWrite a [b]) ∨
    (x = .reset ∧ t = s.resetBlock) := by
  cases x with
  | regWrite offset v =>
    simp only [transact, regWrite] at h
    split at h
    · cases h
    · exact Or.inl ⟨v, h⟩
    · cases h
    · rename_i r _
      injection h with h
      exact Or.inr (Or.inl ⟨r, v, h.symm⟩)
  | regRead offset =>
    simp only [transact, regRead] at h
    split at h
    · cases h
    · injection h with h
      exact Or.inr (Or.inr (Or.inl ⟨_, h.symm⟩))
  | bufWrite a b =>
    simp only [transact, bufWrite] at h
    split at h
    · injection h with h
      exact Or.inr (Or.inr (Or.inr (Or.inl ⟨_, b, ‹_›, h.symm⟩)))
    · cases h
  | bufRead a =>
    simp only [transact, bufRead] at h
    split at h
    · injection h with h
      exact Or.inr (Or.inr (Or.inl ⟨_, h.symm⟩))
    · cases h
  | reset =>
    injection h with h
    exact Or.inr (Or.inr (Or.inr (Or.inr ⟨rfl, h.symm⟩)))

/-- A register write changes the argument registers or one bank, nothing else (R59). -/
theorem RwReg.write_keeps (s : State) (v : Word) (r : RwReg) :
    (r.write s v).csu = s.csu ∧ (r.write s v).cmd = s.cmd ∧ (r.write s v).status = s.status ∧ (r.write s v).res = s.res ∧
    (r.write s v).olen = s.olen ∧ (r.write s v).mem = s.mem ∧ (r.write s v).epoch = s.epoch ∧
    (r.write s v).params = s.params ∧ (r.write s v).script = s.script ∧ (r.write s v).replies = s.replies := by
  cases r <;> exact ⟨rfl, rfl, rfl, rfl, rfl, rfl, rfl, rfl, rfl, rfl⟩

end Sys2Proof.Machine
end

