-- ==== Sys2Proof/Machine/Script.lean ====
section
/-! DEFINITION. Host scripts (R79): the statements SET, GET, PUT, DUMP and a command as lists of transactions, and the
pseudo-instructions CK.BUF, PING and PSHSUM as their expansions (R80). -/

namespace Sys2Proof.Machine

/-- SET reg, value. -/
def scriptSet (r : RwReg) (v : Word) : List Transaction := [.regWrite r.offset v]

/-- GET reg. -/
def scriptGet (r : Reg) : List Transaction := [.regRead r.offset]

/-- PUT addr, bytes: byte writes at rising addresses, modulo 2^32 where they would pass 0xFFFFFFFF (DESIGN CHOICE, log entry 21). -/
def scriptPut (a : Word) : List Byte → List Transaction
  | [] => []
  | b :: bs => .bufWrite a b :: scriptPut (a + 1) bs

/-- DUMP addr, n: byte reads at rising addresses, modulo 2^32 where they would pass 0xFFFFFFFF (DESIGN CHOICE, log entry 21). -/
def scriptDump (a : Word) : Nat → List Transaction
  | 0 => []
  | n + 1 => .bufRead a :: scriptDump (a + 1) n

/-- MNEMONIC: the host writes the command word of R74 to CMD. -/
def scriptCommand (i : Instr) : List Transaction := [.regWrite Reg.cmd.offset (encode i)]

/-- SET a0, op0; SET a1, op1; ... for operands in order. -/
def scriptOperands (ops : List Word) : List Transaction :=
  (List.zip [ArgReg.a0, ArgReg.a1, ArgReg.a2, ArgReg.a3, ArgReg.a4, ArgReg.a5] ops).map
    fun p => Transaction.regWrite p.1.offset p.2

/-- MNEMONIC op0, op1, ...: the operands in the order of R76, then the command. -/
def scriptCall (i : Instr) (ops : List Word) : List Transaction := scriptOperands ops ++ scriptCommand i

/-- s:d, the ports word of R76. -/
def portsWord (src dst : Half) : Word := src ++ dst

/-- A.B.C.D as the u32 of its four bytes (R14). -/
def addr4 (a b c d : Byte) : Word := u32be a b c d

/-- CK.BUF addr, len (R80). -/
def scriptCkBuf (a len : Word) : List Transaction :=
  scriptCommand .ckClr ++ scriptCall .ckAdd [a, len] ++ scriptCommand .ckGet

/-- PING seq, dst, oaddr (R80). The operand oaddr+20 is 32 bits wide; where the sum passes 0xFFFFFFFF no rule gives it, and the
model takes it modulo 2^32 (DESIGN CHOICE, unsafe, log entry 21). -/
def scriptPing (seq dst oaddr : Word) : List Transaction :=
  scriptCall .bldIcmp [seq] ++ scriptCall .bldIp [8, Config.protoIcmp.setWidth 32, dst] ++ scriptCall .encIp [oaddr] ++
    scriptCall .encIcmp [oaddr + 20]

/-- PSHSUM paddr, pktaddr, ulen (R80). The operand pktaddr+20 is 32 bits wide; where the sum passes 0xFFFFFFFF no rule gives it,
and the model takes it modulo 2^32 (DESIGN CHOICE, unsafe, log entry 21). -/
def scriptPshSum (paddr pktaddr ulen : Word) : List Transaction :=
  scriptCall .bldPsh [ulen] ++ scriptCall .encPsh [paddr] ++ scriptCommand .ckClr ++ scriptCall .ckAdd [paddr, 12] ++
    scriptCall .ckAdd [pktaddr + 20, ulen] ++ scriptCommand .ckGet

end Sys2Proof.Machine
end

