-- ==== Sys2Proof/Tests/Slice0.lean ====
section
/-! SUPPORT. Tests: the well-formedness check, every command word written out from R71 to R74, one or two single steps per
command with the expected values of 95_test_vectors.md, and for every statement with hypotheses a witness that meets them. -/

namespace Sys2Proof.Tests

open Sys2Proof.Machine Sys2Proof.Claims

/-! ### Helpers -/

/-- The parameters that 95_test_vectors.md uses. -/
def vec : Params :=
  { localAddr := 0xC0000202#32, ipId := 1#16, icmpId := 0x3039#16, tcpWindow := 0xFFFF#16, tcpFlagSyn := 0x02#8,
    pbufSize := 131072, hasTcp := true }

/-- The reset state with those parameters. -/
def start : State := { State.reset with params := vec }

/-- STATUS after a BufferRange. -/
def failed : Status := { err := some .bufferRange, sticky := true, halt := false }

def bytes (l : List Nat) : List Byte := l.map (BitVec.ofNat 8)

/-- start with bytes in PBUF and with argument registers. -/
def loaded (a : Nat) (l : List Nat) (args : Args) : State := (start.memWrite a (bytes l)).setArgs args

def argsOf (a0 a1 a2 a3 a4 a5 : Word) : Args := { a0 := a0, a1 := a1, a2 := a2, a3 := a3, a4 := a4, a5 := a5 }

def args2 (a0 a1 : Word) : Args := argsOf a0 a1 0 0 0 0

/-- What a function gives of the next state; none where there is none. -/
def seen {α : Type} (f : State → α) : Host.Outcome State Fault Refusal → Option α
  | .next t => some (f t)
  | .fault _ => none
  | .refused _ => none

/-- The command completes, in a state with this property. -/
def Runs (i : Instr) (s : State) (p : State → Prop) : Prop := ∃ t, exec i s = .next t ∧ p t

/-- The step completes, in a state with this property. -/
def Steps (s : State) (p : State → Prop) : Prop := ∃ t, step s = .next t ∧ p t

/-- The twelve bytes of the vectors of part 2.3. -/
def part23 : List Nat := [0x11, 0xaa, 0xbb, 0xcc, 0xdd, 0xee, 0x12, 0x34, 0x12, 0x34, 0x12, 0x34]

/-- The IPv4 fixture of V6. -/
def v6 : IpHeader :=
  { vihl := 0x45, tos := 0, tlen := 28, id := 1, frag := 0, ttl := 16, proto := 6, csum := 0, src := 0xC0A80001,
    dst := 0x08080808 }

/-- The 24-byte SYN of part 2.10. -/
def syn : List Nat :=
  [0x30, 0x39, 0x1f, 0x90, 0, 0, 0, 0, 0, 0, 0, 0, 0x60, 0x02, 0xff, 0xff, 0, 0, 0, 0, 0x02, 0x04, 0x05, 0xb4]

/-- start with the IP bank that BLD.IP 37, 17, 192.0.2.1 leaves, its CSUM apart. -/
def withIp : State :=
  { start with
    ip := { vihl := 0x45, tos := 0, tlen := 57, id := 1, frag := 0, ttl := 64, proto := 17, csum := 0, src := 0xC0000202,
            dst := 0xC0000201 }
    args := args2 37 0 }

/-- The TCP bank of BLD.TCP 0, 0, 0, 0, 12345:8080, 0x02 (part 2.10), in start. -/
def withSyn (a0 : Word) : State :=
  { start with
    args := args2 a0 24
    tcp :=
      { hdr := { sport := 0x3039, dport := 0x1F90, seq := 0, ack := 0, off := 0x60, flags := 0x02, win := 0xFFFF, csum := 0,
                 urg := 0 }
        optLen := 4, opt := optStore (bytes [0x02, 0x04, 0x05, 0xb4]), daddr := 0, dlen := 0 } }

/-! ### Well-formedness (R75, R78): the three TCP commands where there is no TCP unit -/

theorem test_wellFormed_refuses_encTcp : Instr.wellFormed false .encTcp = false := by decide
theorem test_wellFormed_refuses_decTcp : Instr.wellFormed false .decTcp = false := by decide
theorem test_wellFormed_refuses_bldTcp : Instr.wellFormed false .bldTcp = false := by decide
theorem test_wellFormed_accepts : Instr.wellFormed true .encTcp = true ∧ Instr.wellFormed false .udpPkt = true := by decide

/-! ### Every command word, written out from OPC[7:0], HT[11:8] and ZERO[31:12] (R71 to R74) -/

theorem test_decode_system_and_checksum :
    decode true 0b00000000000000000000_0000_00000000#32 = .ok .nop ∧
    decode true 0b00000000000000000000_0000_00010000#32 = .ok .ckClr ∧
    decode true 0b00000000000000000000_0000_00010001#32 = .ok .ckAdd ∧
    decode true 0b00000000000000000000_0000_00010010#32 = .ok .ckGet ∧
    decode true 0b00000000000000000000_0000_00010011#32 = .ok .ckSum := by decide

theorem test_decode_enc :
    decode true 0b00000000000000000000_0000_00100000#32 = .ok .encIp ∧
    decode true 0b00000000000000000000_0001_00100000#32 = .ok .encIcmp ∧
    decode true 0b00000000000000000000_0010_00100000#32 = .ok .encUdp ∧
    decode true 0b00000000000000000000_0011_00100000#32 = .ok .encPsh ∧
    decode true 0b00000000000000000000_0100_00100000#32 = .ok .encTcp := by decide

theorem test_decode_dec :
    decode true 0b00000000000000000000_0000_00100001#32 = .ok .decIp ∧
    decode true 0b00000000000000000000_0001_00100001#32 = .ok .decIcmp ∧
    decode true 0b00000000000000000000_0010_00100001#32 = .ok .decUdp ∧
    decode true 0b00000000000000000000_0011_00100001#32 = .ok .decPsh ∧
    decode true 0b00000000000000000000_0100_00100001#32 = .ok .decTcp := by decide

theorem test_decode_fin_and_bld :
    decode true 0b00000000000000000000_0000_00100010#32 = .ok .finIp ∧
    decode true 0b00000000000000000000_0001_00100010#32 = .ok .finIcmp ∧
    decode true 0b00000000000000000000_0000_00110000#32 = .ok .bldIp ∧
    decode true 0b00000000000000000000_0001_00110000#32 = .ok .bldIcmp ∧
    decode true 0b00000000000000000000_0010_00110000#32 = .ok .udpPkt ∧
    decode true 0b00000000000000000000_0011_00110000#32 = .ok .bldPsh ∧
    decode true 0b00000000000000000000_0100_00110000#32 = .ok .bldTcp := by decide

/-- Part 2.11: words that are no command. -/
theorem test_decode_refuses :
    decode true 0x00000100#32 = .error .headerTypeNotZero ∧ decode true 0x00000014#32 = .error .opcode ∧
    decode true 0x00000222#32 = .error .noFinalize ∧ decode true 0x00000322#32 = .error .noFinalize ∧
    decode true 0x00000422#32 = .error .noFinalize ∧ decode true 0x00000520#32 = .error .headerType ∧
    decode true 0x00000F30#32 = .error .headerType ∧ decode true 0x00001000#32 = .error .zeroField ∧
    decode true 0xFFFFFFFF#32 = .error .zeroField ∧ decode false 0x00000420#32 = .error .noTcpUnit := by decide

theorem test_decodeTableWord : decodeTableWord 32 0x430 = some .bldTcp ∧ decodeTableWord 32 0x530 = none := by decide

/-! ### Steps -/

/-- Part 2.11: NOP written to CMD right after reset. -/
theorem test_step_nop : seen (fun t => (t.cmd, t.status.word)) (step (State.reset.withFetchWord 32 0)) = some (0#32, 0#32) := by
  decide

/-- Part 2.11: an illegal word sets STATUS = 0x13 and reads back at CMD. -/
theorem test_step_illegal :
    seen (fun t => (t.cmd, t.status.word)) (step (start.withCommand 0x00000F30#32)) = some (0x00000F30#32, 0x13#32) := by
  decide

/-- Part 2.4: register write truncation. -/
theorem test_step_write_truncates :
    seen (fun t => t.ip.ttl) (step { start with script := [.regWrite 0x114 0x1FF] }) = some 0xFF#8 := by decide

/-- R52: OPTW1's most significant byte is OPT[4]. -/
theorem test_step_write_optw :
    seen (fun t => (t.tcp.opt[4], t.tcp.opt[7])) (step { start with script := [.regWrite 0x1D4 0x01020304] }) =
      some (0x01#8, 0x04#8) := by decide

theorem test_step_buffer_write :
    seen (fun t => t.pbufByte 5) (step { start with script := [.bufWrite 5 0xAB] }) = some 0xAB#8 := by decide

/-- Part 2.12: after reset STATUS reads 0. -/
theorem test_step_reset :
    seen (fun t => (t.status.word, t.args.a0, t.mem))
      (step (((loaded 0 [1] (args2 7 0)).setStatus failed).setScript [.reset])) = some (0#32, 0#32, []) := by decide

/-! ### The checksum's functions (parts 2.1, 2.2) -/

theorem test_add1c :
    add1c 0xFFFF 0x0001 = 0x0001#16 ∧ add1c 0xFFFF 0xFFFF = 0xFFFF#16 ∧ add1c 0xCD76 0xDDEE = 0xAB65#16 := by decide

theorem test_compute :
    compute [] = 0xFFFF#16 ∧ compute (bytes [0x01]) = 0xFEFF#16 ∧ compute (bytes [0xab, 0xcd, 0xef]) = 0x6531#16 ∧
    compute (bytes part23) = 7678#16 := by decide

/-! ### One or two steps of each command -/

theorem test_nop_clears_err :
    seen (fun t => t.status.word) (exec .nop (start.setStatus failed)) =
      some 0x10#32 := by decide

/-- Part 2.3, step 6. -/
theorem test_ckClr :
    seen (fun t => t.csu.word) (exec .ckClr { start with csu := { acc := 0xE201, odd := true, hold := 0xBB } }) =
      some 0#32 := by decide

/-- Part 2.3, step 1. -/
theorem test_ckAdd_odd :
    seen (fun t => t.csu.word) (exec .ckAdd (loaded 0 part23 (args2 0 3))) = some 0xBB0111AA#32 := by decide

/-- Part 2.3, step 16. -/
theorem test_ckAdd_no_wrap :
    seen (fun t => t.status.word) (exec .ckAdd (loaded 0 part23 (args2 0xFFFFFFFF 2))) = some 0x14#32 := by decide

/-- Part 2.3, step 2: the pending byte is padded for the read-out only. -/
theorem test_ckGet :
    seen (fun t => (t.res, t.csu.word)) (exec .ckGet { start with csu := { acc := 0x11AA, odd := true, hold := 0xBB } }) =
      some (0x3355#16, 0xBB0111AA#32) := by decide

/-- Part 2.3, step 11. -/
theorem test_ckSum_odd_address :
    seen (fun t => (t.res, t.csu.word)) (exec .ckSum (loaded 0 part23 (args2 1 4))) = some (0x8866#16, 0x00007799#32) := by
  decide

/-- Part 2.3, steps 13 and 14. -/
theorem test_ckSum_range :
    seen (fun t => (t.res, t.status.word)) (exec .ckSum (start.setArgs (args2 131072 0))) = some (0xFFFF#16, 0#32) ∧
    seen (fun t => t.status.word) (exec .ckSum (start.setArgs (args2 131071 2))) = some 0x14#32 := by decide

/-- Part 2.4: ENC.IP of V6. -/
theorem test_encIp :
    seen (fun t => (t.memRead 0 20, t.olen)) (exec .encIp { start with ip := v6 }) =
      some (bytes [0x45, 0, 0, 0x1c, 0, 1, 0, 0, 0x10, 0x06, 0, 0, 0xc0, 0xa8, 0, 0x01, 0x08, 0x08, 0x08, 0x08], 20#32) := by
  decide

/-- Part 2.4: ENC.ICMP. -/
theorem test_encIcmp :
    seen (fun t => (t.memRead 0 8, t.olen))
      (exec .encIcmp { start with icmp := { type := 8, code := 0, csum := 0xC7C5, id := 0x3039, seq := 1 } }) =
      some (bytes [0x08, 0, 0xc7, 0xc5, 0x30, 0x39, 0, 0x01], 8#32) := by decide

/-- Part 2.4: ENC.UDP. -/
theorem test_encUdp :
    seen (fun t => (t.memRead 0 8, t.olen))
      (exec .encUdp { start with udp := { sport := 12345, dport := 53, len := 37, csum := 0x36F9 } }) =
      some (bytes [0x30, 0x39, 0, 0x35, 0, 0x25, 0x36, 0xf9], 8#32) := by decide

/-- Part 2.4: ENC.PSH. -/
theorem test_encPsh :
    seen (fun t => (t.memRead 0 12, t.olen))
      (exec .encPsh { start with psh := { src := 0xC0000202, dst := 0xC0000201, zero := 0, proto := 17, len := 37 } }) =
      some (bytes [0xc0, 0, 0x02, 0x02, 0xc0, 0, 0x02, 0x01, 0, 0x11, 0, 0x25], 12#32) := by decide

/-- Part 2.10: ENC.TCP of the SYN. -/
theorem test_encTcp :
    seen (fun t => (t.memRead 0x1000 24, t.olen)) (exec .encTcp (withSyn 0x1000)) = some (bytes syn, 24#32) := by decide

/-- Part 2.10: ENC.TCP straight after reset. -/
theorem test_encTcp_format : seen (fun t => t.status.word) (exec .encTcp start) = some 0x16#32 := by decide

/-- Part 2.4: DEC.IP parses what is no valid header as well. -/
theorem test_decIp :
    seen (fun t => t.ip)
      (exec .decIp (loaded 0 [0x46, 0xff, 0xff, 0xff, 0xff, 0xff, 0xff, 0xff, 0, 0xff, 0xff, 0xff, 1, 2, 3, 4, 5, 6, 7, 8]
        (args2 0 20))) =
      some { vihl := 0x46, tos := 0xFF, tlen := 0xFFFF, id := 0xFFFF, frag := 0xFFFF, ttl := 0, proto := 0xFF,
             csum := 0xFFFF, src := 0x01020304, dst := 0x05060708 } := by decide

/-- Part 2.4: LengthMismatch before BufferRange (R269). -/
theorem test_decIp_errors :
    seen (fun t => t.status.word) (exec .decIp (start.setArgs (args2 131053 28))) = some 0x11#32 ∧
    seen (fun t => t.status.word) (exec .decIp (start.setArgs (args2 131053 20))) = some 0x14#32 := by decide

/-- Part 2.4: DEC.ICMP. -/
theorem test_decIcmp :
    seen (fun t => t.icmp) (exec .decIcmp (loaded 0 [0, 0, 0xcf, 0xc5, 0x30, 0x39, 0, 1] (args2 0 8))) =
      some { type := 0, code := 0, csum := 0xCFC5, id := 0x3039, seq := 1 } := by decide

/-- Part 2.4: DEC.UDP. -/
theorem test_decUdp :
    seen (fun t => t.udp) (exec .decUdp (loaded 0 [0x30, 0x39, 0, 0x35, 0, 0x25, 0x36, 0xf9] (args2 0 8))) =
      some { sport := 0x3039, dport := 0x0035, len := 0x0025, csum := 0x36F9 } := by decide

/-- Part 2.4: DEC.UDP takes the 8 header bytes only. -/
theorem test_decUdp_length :
    seen (fun t => t.status.word) (exec .decUdp (start.setArgs (args2 0 37))) = some 0x11#32 := by decide

/-- Part 2.4: DEC.PSH. -/
theorem test_decPsh :
    seen (fun t => t.psh) (exec .decPsh (loaded 0 [1, 2, 3, 4, 5, 6, 7, 8, 9, 0x11, 0, 8] (args2 0 12))) =
      some { src := 0x01020304, dst := 0x05060708, zero := 0x09, proto := 0x11, len := 8 } := by decide

/-- Part 2.10: DEC.TCP of the SYN at 0x1000. -/
theorem test_decTcp :
    seen (fun t => (t.tcp.hdr.off, t.tcp.optLen, TcpReg.read t.tcp (.optw 0), t.tcp.daddr, t.tcp.dlen))
      (exec .decTcp (loaded 0x1000 syn (args2 0x1000 24))) =
      some (0x60#8, 4#6, 0x020405B4#32, 0x1018#32, 0#32) := by decide

/-- Part 2.10: data offsets 16 (below the header) and 28 (above the length). -/
theorem test_decTcp_format :
    seen (fun t => t.status.word) (exec .decTcp (loaded 12 [0x40] (args2 0 24))) = some 0x16#32 ∧
    seen (fun t => t.status.word) (exec .decTcp (loaded 12 [0x70] (args2 0 24))) = some 0x16#32 := by decide

/-- V20, V22. -/
theorem test_finIp :
    seen (fun t => t.ip.csum) (exec .finIp { start with ip := { v6 with csum := 0xFFFF } }) = some 0xDA22#16 ∧
    seen (fun t => t.ip.csum) (exec .finIp start) = some 0xFFFF#16 := by decide

/-- V21. -/
theorem test_finIcmp :
    seen (fun t => t.icmp.csum)
      (exec .finIcmp { start with icmp := { type := 0, code := 0, csum := 0x1234, id := 0x3039, seq := 1 } }) =
      some 0xCFC5#16 := by decide

/-- Part 2.6, last row: upper operand bits are ignored. -/
theorem test_bldIp :
    seen (fun t => encodeIp t.ip) (exec .bldIp (start.setArgs (argsOf 0x00010008 0x00000101 0x08080808 0 0 0))) =
      some (bytes [0x45, 0, 0, 0x1c, 0, 1, 0, 0, 0x40, 0x01, 0xa8, 0xce, 0xc0, 0, 0x02, 0x02, 0x08, 0x08, 0x08, 0x08]) := by
  decide

/-- Part 2.6: 65515 fits total_length, 65516 does not. -/
theorem test_bldIp_length :
    seen (fun t => (t.ip.tlen, t.ip.csum)) (exec .bldIp (start.setArgs (argsOf 65515 17 0xC0000201 0 0 0))) =
      some (0xFFFF#16, 0xf6e8#16) ∧
    seen (fun t => t.status.word) (exec .bldIp (start.setArgs (argsOf 65516 17 0xC0000201 0 0 0))) = some 0x15#32 := by
  decide

/-- Part 2.7. -/
theorem test_bldIcmp :
    seen (fun t => encodeIcmp t.icmp) (exec .bldIcmp (start.setArgs (args2 0xABCD0001 0))) =
      some (bytes [0x08, 0, 0xc7, 0xc5, 0x30, 0x39, 0, 0x01]) := by decide

/-- Part 2.9: the payload 61 62 63, an odd length. -/
theorem test_udpPkt :
    seen (fun t => (t.memRead 0x1000 31, t.olen))
      (exec .udpPkt (loaded 0 [0x61, 0x62, 0x63] (argsOf 0 3 0xC0000201 0x30390035 0x1000 0))) =
      some (bytes ([0x45, 0, 0, 0x1f, 0, 1, 0, 0, 0x40, 0x11, 0xf6, 0xc9, 0xc0, 0, 0x02, 0x02, 0xc0, 0, 0x02, 0x01] ++
        [0x30, 0x39, 0, 0x35, 0, 0x0b, 0x87, 0x03, 0x61, 0x62, 0x63]), 31#32) := by decide

/-- Part 2.9: the errors. -/
theorem test_udpPkt_errors :
    seen (fun t => t.status.word) (exec .udpPkt (start.setArgs (argsOf 0xFFFFFFFF 65508 0 0 0xFFFFFFFF 0))) =
      some 0x15#32 ∧
    seen (fun t => t.status.word) (exec .udpPkt (start.setArgs (argsOf 131072 2 0 0 0 0))) = some 0x14#32 := by decide

/-- Part 2.8. -/
theorem test_bldPsh :
    seen (fun t => t.psh) (exec .bldPsh withIp) =
      some { src := 0xC0000202, dst := 0xC0000201, zero := 0, proto := 0x11, len := 0x0025 } := by decide

/-- Part 2.10: the SYN with the MSS option. -/
theorem test_bldTcp_syn :
    seen (fun t => t.tcp) (exec .bldTcp (start.setArgs (argsOf 0 0 0 0 0x30391F90 0x00000102))) =
      some (withSyn 0).tcp := by decide

/-- Part 2.10: SYN and ACK get no option (R227). -/
theorem test_bldTcp_synAck :
    seen (fun t => (t.tcp.hdr.off, t.tcp.optLen)) (exec .bldTcp (start.setArgs (argsOf 0 0 0 0 0x30391F90 0x12))) =
      some (0x50#8, 0#6) := by decide

/-- The pseudo-instruction CK.BUF as transactions (R80). -/
theorem test_script_ckBuf :
    scriptCkBuf 0x10 5 =
      [.regWrite 0x000 0x10, .regWrite 0x020 0x10, .regWrite 0x024 5, .regWrite 0x000 0x11, .regWrite 0x000 0x12] := by
  decide

/-! ### Witnesses: for every statement with hypotheses, states and operands that meet them -/

/-- start about to make this transaction. -/
def next1 (t : Transaction) : State := start.setScript [t]

/-- start without the TCP unit. -/
def noTcp : State := { start with params := { vec with hasTcp := false } }

/-- start halted, about to make this transaction. -/
def halted1 (t : Transaction) : State :=
  (next1 t).setStatus { err := some .checksumConsistencyViolation, sticky := true, halt := true }

theorem witness_DecodeAndEncodeAgree :
    Instr.wellFormed true .bldTcp = true ∧ Instr.wellFormed false .udpPkt = true ∧
    decode false 0x00000230#32 = .ok .udpPkt ∧ decode true 0x00000430#32 = .ok .bldTcp := by decide

theorem witness_StepRunsTheDecodedCommand :
    IssuesNext (next1 (.regWrite 0 0x00000230)) 0x00000230 [] ∧
    (next1 (.regWrite 0 0x00000230)).status.halt = false ∧
    decode (next1 (.regWrite 0 0x00000230)).params.hasTcp 0x00000230 = .ok .udpPkt :=
  ⟨rfl, rfl, by decide⟩

theorem witness_IllegalWordRaisesIllegalCommand :
    IssuesNext (next1 (.regWrite 0 0x00000110)) 0x00000110 [] ∧
    (next1 (.regWrite 0 0x00000110)).status.halt = false ∧
    ∀ i, CommandPresent (next1 (.regWrite 0 0x00000110)).params.hasTcp i → (0x00000110 : Word) ≠ tableWord i := by
  refine ⟨rfl, rfl, ?_⟩
  rintro (_ | _) - <;> decide

/-- The boundary where the TCP unit is absent: the word of ENC.TCP. -/
theorem witness_IllegalWordRaisesIllegalCommand_noTcp :
    ∀ i, CommandPresent noTcp.params.hasTcp i → (0x00000420 : Word) ≠ tableWord i := by
  intro i h
  cases i <;> first | decide | (rcases h with h | h <;> simp [noTcp, vec] at h)

theorem witness_HaltedBlockIgnoresCommands_command :
    (halted1 (.regWrite 0 0x10)).status.halt = true ∧ IssuesNext (halted1 (.regWrite 0 0x10)) 0x10 [] := ⟨rfl, rfl⟩

theorem witness_HaltedBlockIgnoresCommands_read :
    (halted1 (.regRead 0x004)).status.halt = true ∧
    regAt (halted1 (.regRead 0x004)).params.hasTcp (Reg.ro .status).offset = some (.ro .status) ∧
    (halted1 (.regRead 0x004)).script = .regRead (Reg.ro .status).offset :: [] := by decide

theorem witness_HaltedBlockIgnoresCommands_write :
    (halted1 (.regWrite 0x020 7)).status.halt = true ∧
    regAt (halted1 (.regWrite 0x020 7)).params.hasTcp (RwReg.arg .a0).offset = some (.rw (.arg .a0)) ∧
    (halted1 (.regWrite 0x020 7)).script = .regWrite (RwReg.arg .a0).offset 7 :: [] := by decide

theorem witness_HaltedBlockIgnoresCommands_buffer :
    (halted1 (.bufWrite 131071 9)).status.halt = true ∧
    BitVec.toNat (131071 : Word) < (halted1 (.bufWrite 131071 9)).params.pbufSize ∧
    (halted1 (.bufWrite 131071 9)).script = .bufWrite 131071 9 :: [] := by decide

theorem witness_ResetClearsEveryRegister : (halted1 .reset).script = .reset :: [] := rfl

theorem witness_StepKeepsTheInvariant :
    (next1 (.bufWrite 131071 9)).Inv ∧ Steps (next1 (.bufWrite 131071 9)) fun t => t.mem ≠ [] :=
  ⟨by decide, _, rfl, by decide⟩

theorem witness_NoStepHaltsTheBlock :
    (next1 (.regWrite 0 0x22)).running ∧ Steps (next1 (.regWrite 0 0x22)) fun t => t.ip.csum = 0xFFFF :=
  ⟨rfl, _, rfl, by decide⟩

theorem witness_StickyAndHaltClearOnlyOnReset :
    (halted1 (.regWrite 0 0)).script.head? ≠ some .reset ∧ (halted1 (.regWrite 0 0)).status.sticky = true ∧
    (halted1 (.regWrite 0 0)).status.halt = true ∧ Steps (halted1 (.regWrite 0 0)) fun _ => True :=
  ⟨by decide, rfl, rfl, _, rfl, trivial⟩

theorem witness_StepTakesOneTransactionAndKeepsParameters :
    (next1 (.regRead 0)).script.head? ≠ some .reset ∧ Steps (next1 (.regRead 0)) fun t => t.replies = [.word 0] :=
  ⟨by decide, _, rfl, rfl⟩

theorem witness_HostWriteStoresLowBitsOfOneRegister :
    regAt (next1 (.regWrite 0x1F4 0x12345678)).params.hasTcp (RwReg.tcp (.optw 9)).offset = some (.rw (.tcp (.optw 9))) ∧
    (next1 (.regWrite 0x1F4 0x12345678)).script = .regWrite (RwReg.tcp (.optw 9)).offset 0x12345678 :: [] := by decide

theorem witness_HostReadGivesTheValueAndChangesNothing_register :
    regAt (next1 (.regRead 0x010)).params.hasTcp (Reg.ro .ckst).offset = some (.ro .ckst) ∧
    (next1 (.regRead 0x010)).script = .regRead (Reg.ro .ckst).offset :: [] := by decide

theorem witness_HostReadGivesTheValueAndChangesNothing_buffer :
    BitVec.toNat (131071 : Word) < (next1 (.bufRead 131071)).params.pbufSize ∧
    (next1 (.bufRead 131071)).script = .bufRead 131071 :: [] := by decide

theorem witness_HostBufferWriteChangesOneByte :
    BitVec.toNat (0 : Word) < (next1 (.bufWrite 0 1)).params.pbufSize ∧ (next1 (.bufWrite 0 1)).script = .bufWrite 0 1 :: [] := by
  decide

theorem witness_RegisterMapIsExact : 0x002 % 4 ≠ 0 ∧ (0x1F4, Reg.rw (.tcp (.optw 9))) ∈ registerMap :=
  ⟨by decide, List.mem_append_right _ (List.mem_map.2 ⟨9, List.mem_finRange _, rfl⟩)⟩

theorem witness_AccessOutsideTheInterfaceHasNoStep_unmapped :
    regAt (next1 (.regWrite 0x014 0)).params.hasTcp 0x014 = none ∧ regAt noTcp.params.hasTcp 0x1A0 = none ∧
    (next1 (.regWrite 0x014 0)).script = .regWrite 0x014 0 :: [] ∧ (next1 (.regRead 0x1F8)).script = .regRead 0x1F8 :: [] ∧
    regAt (next1 (.regRead 0x1F8)).params.hasTcp 0x1F8 = none := by decide

theorem witness_AccessOutsideTheInterfaceHasNoStep_readOnly :
    (next1 (.regWrite 0x010 0)).script = .regWrite (RoReg.ckst).offset 0 :: [] := rfl

theorem witness_AccessOutsideTheInterfaceHasNoStep_buffer :
    (next1 (.bufRead 131072)).params.pbufSize ≤ BitVec.toNat (131072 : Word) ∧
    (next1 (.bufRead 131072)).script = .bufRead 131072 :: [] := by decide

theorem witness_AccessOutsideTheInterfaceHasNoStep_end : State.reset.script = [] := rfl

theorem witness_FailedCommandChangesOnlyStatus :
    (Runs .ckSum (start.setArgs (args2 131071 2)) fun t => t.status.err = some .bufferRange) ∧
    (Runs .ckSum (start.setArgs (args2 131072 0)) fun t => t.status.err = none) :=
  ⟨⟨_, rfl, by decide⟩, ⟨_, rfl, by decide⟩⟩

theorem witness_FailedCommandFailsAgain :
    Runs .encTcp start fun t => t.status.err = some .tcpFormat := ⟨_, rfl, by decide⟩

/-- One command for each error that a command raises. -/
theorem witness_CommandsRaiseOnlyTheirErrors :
    (Runs .decTcp (start.setArgs (args2 0 19)) fun t => t.status.err = some .lengthMismatch) ∧
    (Runs .decTcp (start.setArgs (args2 131053 20)) fun t => t.status.err = some .bufferRange) ∧
    (Runs .decTcp (loaded 12 [0x40] (args2 0 24)) fun t => t.status.err = some .tcpFormat) ∧
    (Runs .bldIp (start.setArgs (args2 65516 17)) fun t => t.status.err = some .lengthOverflow) :=
  ⟨⟨_, rfl, by decide⟩, ⟨_, rfl, by decide⟩, ⟨_, rfl, by decide⟩, ⟨_, rfl, by decide⟩⟩

theorem witness_FrameOfNopAndChecksumCommands :
    (Runs .nop start fun t => t.status.err = none) ∧ (Runs .ckClr start fun t => t.status.err = none) ∧
    (Runs .ckAdd (loaded 0 part23 (args2 0 12)) fun t => t.csu.acc = 0xE201) ∧
    (Runs .ckGet start fun t => t.res = 0xFFFF) ∧ (Runs .ckSum (loaded 0 part23 (args2 0 12)) fun t => t.res = 0x1DFE) :=
  ⟨⟨_, rfl, by decide⟩, ⟨_, rfl, by decide⟩, ⟨_, rfl, by decide⟩, ⟨_, rfl, by decide⟩, ⟨_, rfl, by decide⟩⟩

theorem witness_FrameOfBankWritingCommands_dec :
    (Runs .decIp (loaded 0 [0x46] (args2 0 20)) fun t => t.ip.vihl = 0x46) ∧
    (Runs .decIcmp (loaded 0 [8] (args2 0 8)) fun t => t.icmp.type = 8) ∧
    (Runs .decUdp (loaded 0 [1, 2] (args2 0 8)) fun t => t.udp.sport = 0x0102) ∧
    (Runs .decPsh (loaded 8 [9] (args2 0 12)) fun t => t.psh.zero = 9) ∧
    (Runs .decTcp (loaded 0x1000 syn (args2 0x1000 24)) fun t => t.tcp.optLen = 4) :=
  ⟨⟨_, rfl, by decide⟩, ⟨_, rfl, by decide⟩, ⟨_, rfl, by decide⟩, ⟨_, rfl, by decide⟩, ⟨_, rfl, by decide⟩⟩

theorem witness_FrameOfBankWritingCommands_fin_and_bld :
    (Runs .finIp start fun t => t.ip.csum = 0xFFFF) ∧ (Runs .finIcmp start fun t => t.icmp.csum = 0xFFFF) ∧
    (Runs .bldIp (start.setArgs (args2 8 1)) fun t => t.ip.tlen = 28) ∧
    (Runs .bldIcmp (start.setArgs (args2 1 0)) fun t => t.icmp.seq = 1) ∧
    (Runs .bldPsh withIp fun t => t.psh.len = 37) ∧
    (Runs .bldTcp (start.setArgs (argsOf 0 0 0 0 0 2)) fun t => t.tcp.optLen = 4) :=
  ⟨⟨_, rfl, by decide⟩, ⟨_, rfl, by decide⟩, ⟨_, rfl, by decide⟩, ⟨_, rfl, by decide⟩, ⟨_, rfl, by decide⟩,
    ⟨_, rfl, by decide⟩⟩

theorem witness_FrameOfStoringCommands :
    (Runs .encIp start fun t => t.olen = 20) ∧ (Runs .encIcmp start fun t => t.olen = 8) ∧
    (Runs .encUdp start fun t => t.olen = 8) ∧ (Runs .encPsh start fun t => t.olen = 12) ∧
    (Runs .encTcp (withSyn 0x1000) fun t => t.olen = 24) ∧
    (Runs .udpPkt (start.setArgs (argsOf 0 0 0xC0000201 0x30390035 0x1000 0)) fun t => t.olen = 28) :=
  ⟨⟨_, rfl, by decide⟩, ⟨_, rfl, by decide⟩, ⟨_, rfl, by decide⟩, ⟨_, rfl, by decide⟩, ⟨_, rfl, by decide⟩,
    ⟨_, rfl, by decide⟩⟩

/-- Two argument sets that differ only in bits a narrow operand ignores. -/
theorem witness_NarrowOperandsIgnoreUpperBits :
    (argsOf 0xFFFF0008 0x00000101 7 0 0 0).a0.toNat % 2 ^ 16 = (argsOf 8 1 7 0 0 0).a0.toNat % 2 ^ 16 ∧
    (argsOf 0xFFFF0008 0x00000101 7 0 0 0).a1.toNat % 2 ^ 8 = (argsOf 8 1 7 0 0 0).a1.toNat % 2 ^ 8 ∧
    (argsOf 0xFFFF0008 0x00000101 7 0 0 0).a2 = (argsOf 8 1 7 0 0 0).a2 ∧
    (argsOf 0 0 0 0 0 0x102).a5.toNat % 2 ^ 8 = (argsOf 0 0 0 0 0 2).a5.toNat % 2 ^ 8 ∧
    ({ argsOf 0 0 0 0 0 0x102 with a5 := (argsOf 0 0 0 0 0 2).a5 } : Args) = argsOf 0 0 0 0 0 2 := by decide

theorem witness_UdpPktReadsNoBank :
    withIp.ip ≠ ({ withIp with ip := v6 } : State).ip ∧ ({ withIp with ip := v6 } : State).args = withIp.args ∧
    ({ withIp with ip := v6 } : State).params = withIp.params ∧
    ∀ x, ({ withIp with ip := v6 } : State).pbufByte x = withIp.pbufByte x :=
  ⟨by decide, rfl, rfl, fun _ => rfl⟩

theorem witness_CkGetReadsTheChecksumAbsorbed :
    ({ start with csu := { acc := 0x11AA, odd := true, hold := 0xBB } } : State).csu =
      absorb Csu.clear (bytes [0x11, 0xaa, 0xbb]) := by decide

/-- CkSumGivesTheChecksumOfTheRange: both sides of the range check at its boundary. -/
theorem witness_CkSumGivesTheChecksumOfTheRange :
    (args2 131072 0).a1.toNat = 0 ∧ (args2 0 131072).a0.toNat + (args2 0 131072).a1.toNat ≤ start.params.pbufSize ∧
    0 < (args2 131072 1).a1.toNat ∧ start.params.pbufSize < (args2 131072 1).a0.toNat + (args2 131072 1).a1.toNat := by decide

/-- CkAddAbsorbsTheRange: an empty range anywhere, a range that ends the
buffer, one that leaves it by a byte, and an accumulator with a byte waiting. -/
theorem witness_CkAddAbsorbsTheRange :
    (args2 0xFFFFFFFF 0).a1.toNat = 0 ∧ (args2 131070 2).a0.toNat + (args2 131070 2).a1.toNat ≤ start.params.pbufSize ∧
    0 < (args2 131071 2).a1.toNat ∧ start.params.pbufSize < (args2 131071 2).a0.toNat + (args2 131071 2).a1.toNat ∧
    ({ acc := 0x11AA, odd := true, hold := 0xBB } : Csu) = absorb Csu.clear (bytes [0x11, 0xaa, 0xbb]) := by decide

theorem witness_AccumulatorTracksTheAbsorbedStream :
    start.csu = absorb Csu.clear [] ∧ (Runs .ckAdd (loaded 0 part23 (args2 0 3)) fun t => t.csu.odd = true) ∧
    (Runs .ckSum (loaded 0 part23 (args2 0 2)) fun t => t.csu.odd = false) ∧
    (Runs .ckAdd (start.setArgs (args2 131072 1)) fun t => t.status.err ≠ none) :=
  ⟨rfl, ⟨_, rfl, by decide⟩, ⟨_, rfl, by decide⟩, ⟨_, rfl, by decide⟩⟩

theorem witness_EndAroundCarryAdditionLaws :
    (0x0001#16 ≠ 0x0000#16) ∧ ¬ (0x0000#16 = 0x0000#16 ∧ 0x0001#16 = 0x0000#16) := by decide

theorem witness_FoldHasTheClosedForm :
    (∀ g ∈ groups (bytes [0, 0, 0]), g = 0x0000#16) ∧ (∃ g ∈ groups (bytes [0, 0, 1]), g ≠ 0x0000#16) ∧
    (∃ b ∈ bytes [0xff, 0xfe, 0, 1], b ≠ 0x00#8) ∧ 65535 ∣ groupSum (bytes [0xff, 0xfe, 0, 1]) :=
  ⟨by simp [bytes, groups, u16be], by simp [bytes, groups, u16be], by decide, Nat.dvd_of_mod_eq_zero (by decide)⟩

theorem witness_ChecksumCornerValues :
    (∀ b ∈ bytes [0, 0, 0], b = 0x00#8) ∧ fold (bytes [0xff, 0xff]) = 0xFFFF#16 := by decide

theorem witness_FinalizedBytesVerify : Runs .finIp start fun t => t.status.err ≠ some .checksumConsistencyViolation :=
  ⟨_, rfl, by decide⟩

theorem witness_HeaderCodecIsABijection :
    (start.memRead 0 20).length = 20 ∧ (start.memRead 0 8).length = 8 ∧ (start.memRead 0 12).length = 12 := ⟨rfl, rfl, rfl⟩

/-- EncWritesTheBanksEncoding: the last address that fits and the first that does not, for 20, 12 and 8 bytes. -/
theorem witness_EncWritesTheBanksEncoding :
    (args2 131052 0).a0.toNat + 20 ≤ start.params.pbufSize ∧ start.params.pbufSize < (args2 131053 0).a0.toNat + 20 ∧
    (args2 131064 0).a0.toNat + 8 ≤ start.params.pbufSize ∧ start.params.pbufSize < (args2 131065 0).a0.toNat + 8 ∧
    (args2 131060 0).a0.toNat + 12 ≤ start.params.pbufSize ∧ start.params.pbufSize < (args2 131061 0).a0.toNat + 12 := by
  decide

/-- DecReadsTheBank: the exact length at the last address, a length one too many, the first address that does not fit. -/
theorem witness_DecReadsTheBank :
    (args2 131052 20).a1.toNat = 20 ∧ (args2 131052 20).a0.toNat + 20 ≤ start.params.pbufSize ∧ (args2 0 21).a1.toNat ≠ 20 ∧
    (args2 131053 20).a1.toNat = 20 ∧ start.params.pbufSize < (args2 131053 20).a0.toNat + 20 ∧
    (args2 131064 8).a1.toNat = 8 ∧ (args2 131064 8).a0.toNat + 8 ≤ start.params.pbufSize ∧ (args2 0 7).a1.toNat ≠ 8 ∧
    (args2 131060 12).a1.toNat = 12 ∧ (args2 131060 12).a0.toNat + 12 ≤ start.params.pbufSize ∧ (args2 0 8).a1.toNat ≠ 12 := by
  decide

theorem witness_DecAfterEncRestoresTheBank :
    withIp.args.a0.toNat + 20 ≤ withIp.params.pbufSize ∧ withIp.args.a0.toNat + 8 ≤ withIp.params.pbufSize ∧
    (Runs .encIp withIp fun t => t.olen = 20) ∧ (Runs .encIcmp withIp fun t => t.olen = 8) :=
  ⟨by decide, by decide, ⟨_, rfl, by decide⟩, ⟨_, rfl, by decide⟩⟩

theorem witness_BldIpBuildsTheHeader :
    20 + (args2 65515 17).a0.toNat % 2 ^ 16 ≤ 0xFFFF ∧ 0xFFFF < 20 + (args2 65516 17).a0.toNat % 2 ^ 16 ∧
    20 + (args2 0x00010000 17).a0.toNat % 2 ^ 16 ≤ 0xFFFF := by decide

/-- UdpPktWritesThePacket: the largest payload, at the last output address; and an empty payload from anywhere. -/
theorem witness_UdpPktWritesThePacket :
    (argsOf 0 65507 0 0 65537 0).a1.toNat ≤ 65507 ∧
    (argsOf 0 65507 0 0 65537 0).a0.toNat + (argsOf 0 65507 0 0 65537 0).a1.toNat ≤ start.params.pbufSize ∧
    (argsOf 0 65507 0 0 65537 0).a4.toNat + 28 + (argsOf 0 65507 0 0 65537 0).a1.toNat ≤ start.params.pbufSize ∧
    (argsOf 0xFFFFFFFF 0 0 0 0 0).a1.toNat = 0 ∧
    (argsOf 0xFFFFFFFF 0 0 0 131044 0).a4.toNat + 28 + (argsOf 0xFFFFFFFF 0 0 0 131044 0).a1.toNat ≤
      start.params.pbufSize := by decide

/-- The error clauses of UdpPktWritesThePacket. -/
theorem witness_UdpPktWritesThePacket_errors :
    65507 < (argsOf 0 65508 0 0 0 0).a1.toNat ∧ (argsOf 65566 65507 0 0 0 0).a1.toNat ≤ 65507 ∧
    0 < (argsOf 65566 65507 0 0 0 0).a1.toNat ∧
    start.params.pbufSize < (argsOf 65566 65507 0 0 0 0).a0.toNat + (argsOf 65566 65507 0 0 0 0).a1.toNat ∧
    start.params.pbufSize < (argsOf 0 65507 0 0 65538 0).a4.toNat + 28 + (argsOf 0 65507 0 0 65538 0).a1.toNat := by decide

/-- Part 2.9, last row: the UDP checksum that comes out as zero. -/
theorem witness_UdpPacketVerifiesRegionByRegion :
    Runs .udpPkt (loaded 0 [0x4b, 0x68] (argsOf 0 2 0xC0000201 0x30390035 0x1000 0)) fun t =>
      t.status.err = none ∧ t.memRead 0x101A 4 = bytes [0, 0, 0x4b, 0x68] :=
  ⟨_, rfl, by decide⟩

theorem witness_EncTcpWritesThePacket :
    TcpBankOk (withSyn 131048).tcp ∧ (withSyn 131048).tcp.dlen.toNat = 0 ∧
    (withSyn 131048).args.a0.toNat + (20 + (withSyn 131048).tcp.optLen.toNat + (withSyn 131048).tcp.dlen.toNat) ≤
      (withSyn 131048).params.pbufSize ∧
    20 + (withSyn 131048).tcp.optLen.toNat + (withSyn 131048).tcp.dlen.toNat < 2 ^ 32 :=
  ⟨by unfold TcpBankOk; decide, by decide, by decide, by decide⟩

/-- The error clauses of EncTcpWritesThePacket: the reset bank, a payload and an output that leave the buffer by a byte. -/
theorem witness_EncTcpWritesThePacket_errors :
    ¬ TcpBankOk start.tcp ∧
    TcpBankOk ({ (withSyn 0).tcp with daddr := 131071, dlen := 2 } : TcpBank) ∧
    0 < ({ (withSyn 0).tcp with daddr := 131071, dlen := 2 } : TcpBank).dlen.toNat ∧
    (withSyn 0).params.pbufSize < ({ (withSyn 0).tcp with daddr := 131071, dlen := 2 } : TcpBank).daddr.toNat +
      ({ (withSyn 0).tcp with daddr := 131071, dlen := 2 } : TcpBank).dlen.toNat ∧
    TcpBankOk (withSyn 131049).tcp ∧
    (withSyn 131049).params.pbufSize <
      (withSyn 131049).args.a0.toNat + (20 + (withSyn 131049).tcp.optLen.toNat + (withSyn 131049).tcp.dlen.toNat) :=
  ⟨by unfold TcpBankOk; decide, by unfold TcpBankOk; decide, by decide, by decide, by unfold TcpBankOk; decide, by decide⟩

/-- DecTcpParsesThePacket: the SYN at the end of the buffer, and the largest data offset, 60. -/
theorem witness_DecTcpParsesThePacket :
    20 ≤ (loaded 131048 syn (args2 131048 24)).args.a1.toNat ∧
    (loaded 131048 syn (args2 131048 24)).args.a0.toNat + (loaded 131048 syn (args2 131048 24)).args.a1.toNat ≤
      (loaded 131048 syn (args2 131048 24)).params.pbufSize ∧
    20 ≤ tcpOffAt (loaded 131048 syn (args2 131048 24)) ∧
    tcpOffAt (loaded 131048 syn (args2 131048 24)) ≤ (loaded 131048 syn (args2 131048 24)).args.a1.toNat ∧
    tcpOffAt (loaded 12 [0xf0] (args2 0 60)) ≤ (loaded 12 [0xf0] (args2 0 60)).args.a1.toNat := by decide

/-- The error clauses of DecTcpParsesThePacket. -/
theorem witness_DecTcpParsesThePacket_errors :
    (args2 0 19).a1.toNat < 20 ∧ 20 ≤ (args2 131053 20).a1.toNat ∧
    start.params.pbufSize < (args2 131053 20).a0.toNat + (args2 131053 20).a1.toNat ∧
    tcpOffAt (loaded 12 [0x40] (args2 0 24)) < 20 ∧
    (loaded 12 [0x70] (args2 0 24)).args.a1.toNat < tcpOffAt (loaded 12 [0x70] (args2 0 24)) := by decide

/-- BldTcpBuildsThePacketValue: both sides of its last two clauses. -/
theorem witness_BldTcpBuildsThePacketValue :
    (Runs .bldTcp (start.setArgs (argsOf 0 0 0 0 0 2)) fun t => t.tcp.hdr.flags = start.params.tcpFlagSyn) ∧
    (Runs .bldTcp (start.setArgs (argsOf 0 0 0 0 0 0x12)) fun t => t.tcp.hdr.flags ≠ start.params.tcpFlagSyn) :=
  ⟨⟨_, rfl, by decide⟩, ⟨_, rfl, by decide⟩⟩

theorem witness_DataOffsetAgreesAfterBuildAndParse :
    (Runs .bldTcp start fun t => t.tcp.hdr.off = 0x50) ∧
    (Runs .decTcp (loaded 12 [0x5f] (args2 0 20)) fun t => t.status.err = none ∧ t.tcp.hdr.off = 0x5F) :=
  ⟨⟨_, rfl, by decide⟩, ⟨_, rfl, by decide⟩⟩

theorem witness_EncTcpAfterDecTcpReproducesTheBytes :
    (loaded 0x1014 syn (args2 0x1014 24)).params.valid ∧
    (Runs .decTcp (loaded 0x1014 syn (args2 0x1014 24)) fun t => t.status.err = none) ∧
    BitVec.toNat (0x3000 : Word) + (loaded 0x1014 syn (args2 0x1014 24)).args.a1.toNat ≤
      (loaded 0x1014 syn (args2 0x1014 24)).params.pbufSize :=
  ⟨by decide, ⟨_, rfl, by decide⟩, by decide⟩

end Sys2Proof.Tests
end

section
/-! PROOFS, family 10_state. What a command does to each part of the state, said once for all 22: the bytes it stores, the
accumulator, STATUS. Then what a step does to the invariant and to STATUS. -/

namespace Sys2Proof.Machine

/-! ### The accumulator (R21) -/

theorem absorb1_wf (c : Csu) (b : Byte) : (absorb1 c b).wf := by
  unfold absorb1
  split
  · intro _
    rfl
  · intro h
    cases h

theorem absorb_wf (c : Csu) (bs : List Byte) (h : c.wf) : (absorb c bs).wf := by
  induction bs generalizing c with
  | nil => exact h
  | cons b bs ih => exact ih _ (absorb1_wf c b)

theorem Csu.clear_wf : Csu.clear.wf := fun _ => rfl

theorem absorb_append (c : Csu) (as bs : List Byte) : absorb c (as ++ bs) = absorb (absorb c as) bs := by
  induction as generalizing c with
  | nil => rfl
  | cons a as ih => exact ih (absorb1 c a)

theorem effectOf_csu_wf (i : Instr) (s : State) (h : s.csu.wf) : (effectOf s i).csu.wf := by
  cases i with
  | ckClr => exact Csu.clear_wf
  | ckAdd => exact absorb_wf _ _ h
  | ckSum => exact absorb_wf _ _ Csu.clear_wf
  | _ => exact h

/-! ### The bytes a command stores (R41) -/

/-- The address and the bytes of a command's MemWrite; none for a command that writes no byte of PBUF. -/
def storesOf (s : State) : Instr → Option (Nat × List Byte)
  | .encIp => some (s.args.dstAddr, encodeIp s.ip)
  | .encIcmp => some (s.args.dstAddr, encodeIcmp s.icmp)
  | .encUdp => some (s.args.dstAddr, encodeUdp s.udp)
  | .encPsh => some (s.args.dstAddr, encodePsh s.psh)
  | .encTcp => some (s.args.dstAddr, encTcpBytes s)
  | .udpPkt => some (s.args.pktOut, pktBytes s)
  | _ => none

theorem effectOf_eq_emit {i : Instr} {s : State} {a : Nat} {bs : List Byte} (h : storesOf s i = some (a, bs)) :
    effectOf s i = s.emit a bs := by
  cases i with
  | encIp | encIcmp | encUdp | encPsh | encTcp | udpPkt =>
    simp only [storesOf, Option.some.injEq, Prod.mk.injEq] at h
    obtain ⟨rfl, rfl⟩ := h
    rfl
  | _ => cases h

theorem effectOf_mem_of_storesOf_none {i : Instr} {s : State} (h : storesOf s i = none) :
    (effectOf s i).mem = s.mem := by
  cases i with
  | encIp | encIcmp | encUdp | encPsh | encTcp | udpPkt => cases h
  | _ => rfl

/-- What ENC.TCP writes has the length its range check is about, once its format check has passed (R222). -/
theorem encTcpBytes_length_of_checks {s : State} (h : firstFailure (encTcpChecks s) = none) :
    (encTcpBytes s).length = encTcpLen s.tcp := by
  have hf : tcpFormatOk s.tcp = true := (firstFailure_none_iff _).1 h _ (List.mem_cons_self)
  obtain ⟨hlen, -⟩ := (tcpFormatOk_iff s.tcp).1 hf
  exact encTcpBytes_length s hlen

/-- A command that passes its checks stores inside the buffer (R57). -/
theorem storesOf_inRange {i : Instr} {s : State} {a : Nat} {bs : List Byte}
    (hc : firstFailure (checksOf s i) = none) (h : storesOf s i = some (a, bs)) : s.inRange a bs.length = true := by
  have hall := (firstFailure_none_iff _).1 hc
  cases i with
  | encIp | encIcmp | encUdp | encPsh =>
    cases h
    exact hall _ (List.mem_cons_self)
  | encTcp =>
    cases h
    rw [encTcpBytes_length_of_checks hc]
    exact hall (s.inRange s.args.dstAddr (encTcpLen s.tcp), .bufferRange) (by simp [checksOf, encTcpChecks])
  | udpPkt =>
    cases h
    rw [pktBytes_length]
    exact hall (s.inRange s.args.pktOut (pktLen s), .bufferRange) (by simp [checksOf, pktChecks])
  | _ => cases h

theorem effectOf_mem_wf {i : Instr} {s : State} (hc : firstFailure (checksOf s i) = none)
    (hm : s.mem.wf s.params.pbufSize = true) : (effectOf s i).mem.wf s.params.pbufSize = true := by
  cases hw : storesOf s i with
  | none => rwa [effectOf_mem_of_storesOf_none hw]
  | some w =>
    obtain ⟨a, bs⟩ := w
    rw [effectOf_eq_emit hw, State.emit_mem]
    refine Memory.wf_putBytes _ _ _ _ hm ?_
    rcases (s.inRange_iff a bs.length).1 (storesOf_inRange hc hw) with h0 | h
    · exact Or.inl (List.length_eq_zero_iff.1 h0)
    · exact Or.inr h

/-! ### Everything but STATUS, and STATUS -/

theorem effectOf_status (i : Instr) (s : State) : (effectOf s i).status = s.status := by
  obtain ⟨-, -, h, -⟩ := effectOf_keeps i s
  exact h

theorem effectOf_params (i : Instr) (s : State) : (effectOf s i).params = s.params := by
  obtain ⟨-, -, -, -, h, -⟩ := effectOf_keeps i s
  exact h

/-- STATUS apart, a command either has its effect, all of its checks passed, or changes nothing (R266, R269). -/
theorem exec_effect_or_nothing {i : Instr} {s t : State} (h : exec i s = .next t) :
    (firstFailure (checksOf s i) = none ∧ ∃ st, t = (effectOf s i).setStatus st) ∨ ∃ st, t = s.setStatus st := by
  rcases exec_cases h with ⟨hc, -, rfl⟩ | ⟨hc, -, rfl⟩ | ⟨e, -, rfl⟩
  · exact Or.inl ⟨hc, _, rfl⟩
  · exact Or.inl ⟨hc, _, rfl⟩
  · exact Or.inr ⟨_, rfl⟩

/-- STATUS after a command (R266, R268). -/
theorem exec_status {i : Instr} {s t : State} (h : exec i s = .next t) :
    t.status = s.status.afterSuccess ∨ ∃ e, t.status = s.status.afterError e := by
  rcases exec_cases h with ⟨-, -, rfl⟩ | ⟨-, -, rfl⟩ | ⟨e, -, rfl⟩
  · exact Or.inl (congrArg Status.afterSuccess (effectOf_status i s))
  · exact Or.inr ⟨_, congrArg (Status.afterError _) (effectOf_status i s)⟩
  · exact Or.inr ⟨e, rfl⟩

theorem Status.wf_afterSuccess {st : Status} (h : st.halt = false) : st.afterSuccess.wf := by
  simp [Status.wf, h]

theorem Status.wf_afterError {st : Status} (e : CmdError) (h : st.halt = false) : (Status.afterError e st).wf := by
  refine ⟨fun _ => rfl, ?_⟩
  rw [Status.afterError_halt, Status.afterError_err, h]
  cases e <;> decide

/-- A command, issued while the block is not halted, keeps the invariant. -/
theorem exec_keeps_inv {i : Instr} {s t : State} (hi : s.Inv) (hr : s.running) (h : exec i s = .next t) : t.Inv := by
  obtain ⟨hm, hcsu, -, hp⟩ := hi
  have hst : t.status.wf := by
    rcases exec_status h with e | ⟨e, he⟩
    · exact e ▸ Status.wf_afterSuccess hr
    · exact he ▸ Status.wf_afterError e hr
  rcases exec_effect_or_nothing h with ⟨hc, st, rfl⟩ | ⟨st, rfl⟩
  · refine ⟨?_, effectOf_csu_wf i s hcsu, hst, ?_⟩
    · rw [State.setStatus_mem, State.setStatus_params, effectOf_params]
      exact effectOf_mem_wf hc hm
    · rwa [State.setStatus_params, effectOf_params]
  · exact ⟨hm, hcsu, hst, hp⟩

/-! ### Steps -/

/-- A step that answers a next state makes the next transaction. -/
theorem step_transact {s t : State} (h : step s = .next t) :
    ∃ x rest, s.script = x :: rest ∧ transact x (s.setScript rest) = .next t := by
  cases hs : s.script with
  | nil =>
    rw [step_nil hs] at h
    cases h
  | cons x rest => exact ⟨x, rest, rfl, step_cons hs ▸ h⟩

theorem issueCommand_keeps_inv {w : Word} {s t : State} (hi : s.Inv) (h : issueCommand w s = .next t) : t.Inv := by
  obtain ⟨hm, hcsu, hst, hp⟩ := hi
  rcases issueCommand_cases w s with ⟨-, e⟩ | ⟨hf, i, -, e⟩ | ⟨hf, -, e⟩
  · cases e ▸ h
    exact ⟨hm, hcsu, hst, hp⟩
  · exact exec_keeps_inv (s := s.setCmd w) ⟨hm, hcsu, hst, hp⟩ hf (e ▸ h)
  · cases e ▸ h
    exact ⟨hm, hcsu, Status.wf_afterError _ hf, hp⟩

theorem resetBlock_inv {s : State} (hp : s.params.valid) : s.resetBlock.Inv :=
  ⟨Memory.wf_empty _, Csu.clear_wf, ⟨fun h => absurd rfl h, by simp [State.reset, Status.clear]⟩, hp⟩

theorem transact_keeps_inv {x : Transaction} {s t : State} (hi : s.Inv) (h : transact x s = .next t) : t.Inv := by
  obtain ⟨hm, hcsu, hst, hp⟩ := hi
  rcases transact_cases h with ⟨w, hw⟩ | ⟨r, v, rfl⟩ | ⟨v, rfl⟩ | ⟨a, b, ha, rfl⟩ | ⟨-, rfl⟩
  · exact issueCommand_keeps_inv ⟨hm, hcsu, hst, hp⟩ hw
  · obtain ⟨ec, -, es, -, -, em, -, ep, -⟩ := RwReg.write_keeps s v r
    exact ⟨em ▸ ep ▸ hm, ec ▸ hcsu, es ▸ hst, ep ▸ hp⟩
  · exact ⟨hm, hcsu, hst, hp⟩
  · exact ⟨Memory.wf_put _ _ _ _ hm ha, hcsu, hst, hp⟩
  · exact resetBlock_inv hp

/-- Whether STICKY and HALT stay set from one STATUS to a later one. -/
def Status.LatchedIn (st st' : Status) : Prop :=
  (st.sticky = true → st'.sticky = true) ∧ (st.halt = true → st'.halt = true)

theorem Status.LatchedIn.refl (st : Status) : st.LatchedIn st := ⟨id, id⟩

theorem Status.latchedIn_afterError (e : CmdError) (st : Status) : st.LatchedIn (st.afterError e) :=
  ⟨fun _ => rfl, fun h => by simp [h]⟩

theorem exec_latches {i : Instr} {s t : State} (h : exec i s = .next t) : s.status.LatchedIn t.status := by
  rcases exec_status h with e | ⟨e, he⟩
  · exact e ▸ ⟨id, id⟩
  · exact he ▸ Status.latchedIn_afterError e s.status

theorem issueCommand_latches {w : Word} {s t : State} (h : issueCommand w s = .next t) :
    s.status.LatchedIn t.status := by
  rcases issueCommand_cases w s with ⟨-, e⟩ | ⟨-, i, -, e⟩ | ⟨-, -, e⟩
  · cases e ▸ h
    exact Status.LatchedIn.refl _
  · exact exec_latches (s := s.setCmd w) (e ▸ h)
  · cases e ▸ h
    exact Status.latchedIn_afterError _ _

/-- No transaction but reset clears STICKY or HALT (R32, R290). -/
theorem transact_latches {x : Transaction} {s t : State} (hx : x ≠ .reset) (h : transact x s = .next t) :
    s.status.LatchedIn t.status := by
  rcases transact_cases h with ⟨w, hw⟩ | ⟨r, v, rfl⟩ | ⟨v, rfl⟩ | ⟨a, b, -, rfl⟩ | ⟨hr, -⟩
  · exact issueCommand_latches hw
  · obtain ⟨-, -, es, -⟩ := RwReg.write_keeps s v r
    exact es ▸ Status.LatchedIn.refl _
  · exact Status.LatchedIn.refl _
  · exact Status.LatchedIn.refl _
  · exact absurd hr hx

end Sys2Proof.Machine

namespace Sys2Proof.Proofs

open Sys2Proof.Machine Sys2Proof.Claims

/-- Settles O9: transaction by transaction; a command's range checks are what keep the memory canonical. -/
theorem stepKeepsTheInvariant : Obligations.StepKeepsTheInvariant := by
  intro s t hi h
  obtain ⟨x, rest, -, hx⟩ := step_transact h
  exact transact_keeps_inv (s := s.setScript rest) hi hx

/-- Settles O11: every transaction but reset latches both flags. -/
theorem stickyAndHaltClearOnlyOnReset : Obligations.StickyAndHaltClearOnlyOnReset := by
  intro s t h hnr
  obtain ⟨x, rest, hs, hx⟩ := step_transact h
  refine transact_latches (s := s.setScript rest) (fun hr => hnr ?_) hx
  rw [hs, hr]
  rfl

end Sys2Proof.Proofs
end

section
/-! PROOFS, family 10_state. The register space: the map of R36, what a read gives and what a write leaves alone. -/

namespace Sys2Proof.Machine

open Sys2Proof.Claims

/-! ### The map (R36) -/

theorem registerMap_offset_eq {p : Nat × Reg} (h : p ∈ registerMap) : p.1 = p.2.offset := by
  revert p
  decide

theorem registerMap_offset_nodup : (registerMap.map Prod.fst).Nodup := by decide

/-- Every register stands in the table of R36, at its offset. -/
theorem mem_registerMap (r : Reg) : (r.offset, r) ∈ registerMap := by
  cases r with
  | cmd => decide
  | ro r => cases r <;> decide
  | rw r =>
    cases r with
    | arg r | ip r | icmp r | udp r | psh r => cases r <;> decide
    | tcp r =>
      cases r with
      | optw k => exact List.mem_append_right _ (List.mem_map.2 ⟨k, List.mem_finRange k, rfl⟩)
      | _ => decide

theorem mem_registerMap_iff (offset : Nat) (r : Reg) : (offset, r) ∈ registerMap ↔ r.offset = offset :=
  ⟨fun h => (registerMap_offset_eq h).symm, fun h => h ▸ mem_registerMap r⟩

/-- No two registers share an offset. -/
theorem Reg.offset_injective {q r : Reg} (h : q.offset = r.offset) : q = r :=
  congrArg Prod.snd
    (List.inj_on_of_nodup_map registerMap_offset_nodup (mem_registerMap q) (mem_registerMap r) h)

theorem Reg.offset_mod_four (r : Reg) : r.offset % 4 = 0 := by
  have hall : ∀ p ∈ registerMap, p.1 % 4 = 0 := by decide
  exact hall _ (mem_registerMap r)

/-- Whether a register belongs to the TCP unit (R29). -/
def Reg.inTcpBank : Reg → Bool
  | .rw (.tcp _) => true
  | _ => false

theorem Reg.inTcpBank_eq_false_iff (r : Reg) : r.inTcpBank = false ↔ ∀ q : TcpReg, r ≠ .rw (.tcp q) := by
  rcases r with _ | r | r
  · simp [Reg.inTcpBank]
  · simp [Reg.inTcpBank]
  · cases r <;> simp [Reg.inTcpBank]

theorem mem_baseRegs_iff (r : Reg) : r ∈ baseRegs ↔ r.inTcpBank = false := by
  constructor
  · revert r
    decide
  · intro h
    cases r with
    | cmd => decide
    | ro r => cases r <;> decide
    | rw r =>
      cases r with
      | arg r | ip r | icmp r | udp r | psh r => cases r <;> decide
      | tcp r => cases h

theorem mem_tcpRegs (q : TcpReg) : Reg.rw (.tcp q) ∈ tcpRegs := by
  cases q with
  | optw k =>
    revert k
    decide
  | _ => decide

/-- Every register is mapped but, without the TCP unit, those of bank TCP. -/
theorem mem_mappedRegs_iff (hasTcp : Bool) (r : Reg) :
    r ∈ mappedRegs hasTcp ↔ hasTcp = true ∨ ∀ q : TcpReg, r ≠ .rw (.tcp q) := by
  rw [← Reg.inTcpBank_eq_false_iff, mappedRegs, List.mem_append, mem_baseRegs_iff]
  cases hasTcp with
  | false => simp
  | true =>
    simp only [if_true, true_or, iff_true]
    rcases r with _ | r | r
    · exact Or.inl rfl
    · exact Or.inl rfl
    · cases r with
      | tcp q => exact Or.inr (mem_tcpRegs q)
      | _ => exact Or.inl rfl

theorem regAt_eq_some_iff (hasTcp : Bool) (offset : Nat) (r : Reg) :
    regAt hasTcp offset = some r ↔ r.offset = offset ∧ r ∈ mappedRegs hasTcp := by
  constructor
  · intro h
    exact ⟨by simpa using List.find?_some h, List.mem_of_find?_eq_some h⟩
  · rintro ⟨rfl, hr⟩
    obtain ⟨q, hq⟩ := Option.isSome_iff_exists.1
      (List.find?_isSome.2 ⟨r, hr, beq_self_eq_true r.offset⟩ : (regAt hasTcp r.offset).isSome)
    have ho : q.offset = r.offset := by simpa using List.find?_some hq
    rwa [Reg.offset_injective ho] at hq

/-- The read-only registers are mapped with and without the TCP unit. -/
theorem regAt_ro (hasTcp : Bool) (r : RoReg) : regAt hasTcp r.offset = some (.ro r) :=
  (regAt_eq_some_iff hasTcp r.offset (.ro r)).2 ⟨rfl, (mem_mappedRegs_iff _ _).2 (Or.inr fun _ h => by cases h)⟩

/-! ### The option store as words (R29, R52) -/

theorem putOptWord_getElem (opt : Vector Byte 40) (k : Fin 10) (v : Word) (i : Nat) (h : i < 40) :
    (putOptWord opt k v)[i] = if i / 4 = k.val then byteAt (be32 v) (i % 4) else opt[i] := by
  simp [putOptWord]

theorem optWord_putOptWord_same (opt : Vector Byte 40) (k : Fin 10) (v : Word) :
    optWord (putOptWord opt k v) k = v := by
  have hbyte (j : Nat) (hj : j < 4) :
      (putOptWord opt k v)[4 * k.val + j]'(by omega) = byteAt (be32 v) j := by
    rw [putOptWord_getElem, if_pos (by omega), show (4 * k.val + j) % 4 = j by omega]
  have hbyte0 : (putOptWord opt k v)[4 * k.val]'(by omega) = byteAt (be32 v) 0 := hbyte 0 (by omega)
  simp only [optWord, hbyte0, hbyte 1 (by omega), hbyte 2 (by omega), hbyte 3 (by omega)]
  exact u32be_be32 v

theorem optWord_putOptWord_other (opt : Vector Byte 40) {j k : Fin 10} (v : Word) (h : j ≠ k) :
    optWord (putOptWord opt k v) j = optWord opt j := by
  have hjk : j.val ≠ k.val := fun e => h (Fin.ext e)
  have hbyte (i : Nat) (hi : i < 4) :
      (putOptWord opt k v)[4 * j.val + i]'(by omega) = opt[4 * j.val + i]'(by omega) := by
    rw [putOptWord_getElem, if_neg (by omega)]
  have hbyte0 : (putOptWord opt k v)[4 * j.val]'(by omega) = opt[4 * j.val]'(by omega) := hbyte 0 (by omega)
  simp only [optWord, hbyte0, hbyte 1 (by omega), hbyte 2 (by omega), hbyte 3 (by omega)]

/-! ### A read after a write (R30, R59) -/

/-- The register written reads as the low bits that fit it (R30). -/
theorem RwReg.read_write_same (s : State) (v : Word) (r : RwReg) :
    (r.read (r.write s v)).toNat = v.toNat % 2 ^ r.width := by
  have hv := v.isLt
  cases r with
  | arg r => cases r <;> simp [RwReg.read, RwReg.write, RwReg.width, ArgReg.read, ArgReg.write] <;> omega
  | ip r => cases r <;> simp [RwReg.read, RwReg.write, RwReg.width, IpReg.read, IpReg.write, IpReg.width] <;> omega
  | icmp r =>
    cases r <;> simp [RwReg.read, RwReg.write, RwReg.width, IcmpReg.read, IcmpReg.write, IcmpReg.width] <;> omega
  | udp r => cases r <;> simp [RwReg.read, RwReg.write, RwReg.width, UdpReg.read, UdpReg.write, UdpReg.width] <;> omega
  | psh r => cases r <;> simp [RwReg.read, RwReg.write, RwReg.width, PshReg.read, PshReg.write, PshReg.width] <;> omega
  | tcp r =>
    cases r <;> simp [RwReg.read, RwReg.write, RwReg.width, TcpReg.read, TcpReg.write, TcpReg.width,
      optWord_putOptWord_same] <;> omega

/-! Inside one bank, a write leaves the other registers as they were. -/

theorem ArgReg.read_write_other (a : Args) (v : Word) {q r : ArgReg} (h : q ≠ r) : q.read (r.write a v) = q.read a := by
  cases r <;> cases q <;> simp [ArgReg.read, ArgReg.write] at h ⊢

theorem IpReg.read_write_other (b : IpHeader) (v : Word) {q r : IpReg} (h : q ≠ r) :
    q.read (r.write b v) = q.read b := by
  cases r <;> cases q <;> simp [IpReg.read, IpReg.write] at h ⊢

theorem IcmpReg.read_write_other (b : IcmpHeader) (v : Word) {q r : IcmpReg} (h : q ≠ r) :
    q.read (r.write b v) = q.read b := by
  cases r <;> cases q <;> simp [IcmpReg.read, IcmpReg.write] at h ⊢

theorem UdpReg.read_write_other (b : UdpHeader) (v : Word) {q r : UdpReg} (h : q ≠ r) :
    q.read (r.write b v) = q.read b := by
  cases r <;> cases q <;> simp [UdpReg.read, UdpReg.write] at h ⊢

theorem PshReg.read_write_other (b : PshHeader) (v : Word) {q r : PshReg} (h : q ≠ r) :
    q.read (r.write b v) = q.read b := by
  cases r <;> cases q <;> simp [PshReg.read, PshReg.write] at h ⊢

theorem TcpReg.read_write_other (b : TcpBank) (v : Word) {q r : TcpReg} (h : q ≠ r) :
    q.read (r.write b v) = q.read b := by
  cases r with
  | optw k =>
    cases q with
    | optw j => exact optWord_putOptWord_other b.opt v fun e => h (congrArg TcpReg.optw e)
    | _ => simp only [TcpReg.read, TcpReg.write]
  | _ => cases q <;> simp [TcpReg.read, TcpReg.write] at h ⊢

/-- A register write leaves every other host-writable register as it was (R59). -/
theorem RwReg.read_write_other (s : State) (v : Word) {q r : RwReg} (h : q ≠ r) :
    q.read (r.write s v) = q.read s := by
  cases r with
  | arg r =>
    cases q with
    | arg q => exact ArgReg.read_write_other s.args v fun e => h (congrArg RwReg.arg e)
    | _ => rfl
  | ip r =>
    cases q with
    | ip q => exact IpReg.read_write_other s.ip v fun e => h (congrArg RwReg.ip e)
    | _ => rfl
  | icmp r =>
    cases q with
    | icmp q => exact IcmpReg.read_write_other s.icmp v fun e => h (congrArg RwReg.icmp e)
    | _ => rfl
  | udp r =>
    cases q with
    | udp q => exact UdpReg.read_write_other s.udp v fun e => h (congrArg RwReg.udp e)
    | _ => rfl
  | psh r =>
    cases q with
    | psh q => exact PshReg.read_write_other s.psh v fun e => h (congrArg RwReg.psh e)
    | _ => rfl
  | tcp r =>
    cases q with
    | tcp q => exact TcpReg.read_write_other s.tcp v fun e => h (congrArg RwReg.tcp e)
    | _ => rfl

/-- A register write leaves every other register as it was (R59). -/
theorem Reg.read_write_other (s : State) (v : Word) {q : Reg} {r : RwReg} (h : q ≠ .rw r) :
    q.read (r.write s v) = q.read s := by
  obtain ⟨hcsu, hcmd, hstatus, hres, holen, -⟩ := RwReg.write_keeps s v r
  cases q with
  | cmd => exact hcmd
  | ro q => cases q <;> simp only [Reg.read, RoReg.read, hcsu, hstatus, hres, holen]
  | rw q => exact RwReg.read_write_other s v fun e => h (congrArg Reg.rw e)

/-! ### One host access (R30, R37, R302) -/

theorem regWrite_rw {s : State} {r : RwReg} (v : Word) (h : regAt s.params.hasTcp r.offset = some (.rw r)) :
    regWrite r.offset v s = .next (r.write s v) := by
  simp only [regWrite, h]

theorem regWrite_ro (s : State) (r : RoReg) (v : Word) :
    regWrite r.offset v s = .refused (.readOnlyRegister r.offset) := by
  simp only [regWrite, regAt_ro]

theorem regWrite_unmapped {s : State} {offset : Nat} (v : Word) (h : regAt s.params.hasTcp offset = none) :
    regWrite offset v s = .refused (.unmappedOffset offset) := by
  simp only [regWrite, h]

theorem regRead_mapped {s : State} {offset : Nat} {r : Reg} (h : regAt s.params.hasTcp offset = some r) :
    regRead offset s = .next (s.addReply (.word (r.read s))) := by
  simp only [regRead, h]

theorem regRead_unmapped {s : State} {offset : Nat} (h : regAt s.params.hasTcp offset = none) :
    regRead offset s = .refused (.unmappedOffset offset) := by
  simp only [regRead, h]

theorem bufRead_inside {s : State} {a : Word} (h : a.toNat < s.params.pbufSize) :
    bufRead a s = .next (s.addReply (.byte (s.pbufByte a.toNat))) := if_pos h

theorem bufRead_outside {s : State} {a : Word} (h : s.params.pbufSize ≤ a.toNat) :
    bufRead a s = .refused (.bufferAddress a) := if_neg (Nat.not_lt.2 h)

theorem bufWrite_outside {s : State} {a : Word} (b : Byte) (h : s.params.pbufSize ≤ a.toNat) :
    bufWrite a b s = .refused (.bufferAddress a) := if_neg (Nat.not_lt.2 h)

/-- Taking a transaction off the script changes no register. -/
theorem Reg.read_setScript (s : State) (rest : List Transaction) (r : Reg) : r.read (s.setScript rest) = r.read s := by
  rcases r with _ | r | r
  · rfl
  · cases r <;> rfl
  · cases r <;> rfl

/-! ### Every register after reset (R40) -/

theorem optWord_replicate_zero (k : Fin 10) : optWord (Vector.replicate 40 0#8) k = 0#32 := by
  simp [optWord, u32be]

theorem RwReg.read_reset (r : RwReg) : r.read State.reset = 0#32 := by
  cases r with
  | arg r | ip r | icmp r | udp r | psh r => cases r <;> rfl
  | tcp r =>
    cases r with
    | optw k => exact optWord_replicate_zero k
    | _ => rfl

theorem RoReg.read_reset (r : RoReg) : r.read State.reset = 0#32 := by
  cases r <;> rfl

/-- Asserting reset leaves every register as State.reset has it (R290). -/
theorem RwReg.read_resetBlock (s : State) (r : RwReg) : r.read s.resetBlock = r.read State.reset := by
  cases r <;> rfl

theorem RoReg.read_resetBlock (s : State) (r : RoReg) : r.read s.resetBlock = r.read State.reset := by
  cases r <;> rfl

/-! ### The words of STATUS, RES and CKST (R32, R33, R35) -/

/-- The value of a concatenation: the upper part above the lower part's width. -/
theorem toNat_append_eq_add {m n : Nat} (x : BitVec m) (y : BitVec n) : (x ++ y).toNat = x.toNat * 2 ^ n + y.toNat := by
  rw [BitVec.toNat_append, ← Nat.shiftLeft_add_eq_or_of_lt y.isLt, Nat.shiftLeft_eq]

theorem Status.word_toNat (st : Status) :
    st.word.toNat = (errCode st.err).toNat + 16 * st.sticky.toNat + 32 * st.halt.toNat := by
  simp only [Status.word, toNat_append_eq_add, BitVec.toNat_ofBool, BitVec.toNat_ofNat]
  omega

theorem Csu.word_toNat (c : Csu) :
    c.word.toNat = c.acc.toNat + 2 ^ 16 * c.odd.toNat + 2 ^ 24 * c.hold.toNat := by
  simp only [Csu.word, toNat_append_eq_add, BitVec.toNat_ofBool, BitVec.toNat_ofNat]
  omega

end Sys2Proof.Machine

namespace Sys2Proof.Proofs

open Sys2Proof.Machine Sys2Proof.Claims

/-- Settles O16: the table lists each register once, at an offset of its own. -/
theorem registerMapIsExact : Obligations.RegisterMapIsExact := by
  refine ⟨fun hasTcp offset r => ?_, fun hasTcp offset hoff => ?_⟩
  · rw [regAt_eq_some_iff, mem_registerMap_iff, mem_mappedRegs_iff]
  · refine Option.eq_none_iff_forall_ne_some.2 fun r hr => hoff ?_
    obtain ⟨rfl, -⟩ := (regAt_eq_some_iff hasTcp offset r).1 hr
    exact r.offset_mod_four

/-- Settles O13: bank by bank, a read after a write to the same and to another register. -/
theorem hostWriteStoresLowBitsOfOneRegister : Obligations.HostWriteStoresLowBitsOfOneRegister := by
  intro s r v rest hr hs
  obtain ⟨-, -, -, -, -, hmem, hepoch, hparams, hscript, hreplies⟩ := RwReg.write_keeps (s.setScript rest) v r
  refine ⟨r.write (s.setScript rest) v, ?_, r.read_write_same _ v, fun q hq => ?_, fun x => ?_, hparams, hscript,
    hreplies⟩
  · rw [step_cons hs]
    exact regWrite_rw v hr
  · rw [Reg.read_write_other _ v hq, Reg.read_setScript]
  · simp only [State.pbufByte, hmem, hepoch, State.setScript_mem, State.setScript_epoch]

/-- Settles O14: a mapped read and a read inside the buffer only append their answer. -/
theorem hostReadGivesTheValueAndChangesNothing : Obligations.HostReadGivesTheValueAndChangesNothing := by
  refine ⟨fun s r rest hr hs => ?_, fun s a rest ha hs => ?_⟩
  · rw [step_cons hs, ← Reg.read_setScript s rest r]
    exact regRead_mapped hr
  · rw [step_cons hs]
    exact bufRead_inside ha

/-- Settles O17: one refusal per kind of access, and the end of the script. -/
theorem accessOutsideTheInterfaceHasNoStep : Obligations.AccessOutsideTheInterfaceHasNoStep := by
  refine ⟨fun s offset v rest hr hs => ?_, fun s r v rest hs => ?_, fun s a b rest ha hs => ?_, fun s hs => step_nil hs⟩
  · rcases hs with hs | hs <;> rw [step_cons hs]
    · exact regWrite_unmapped v hr
    · exact regRead_unmapped hr
  · rw [step_cons hs]
    exact regWrite_ro _ r v
  · rcases hs with hs | hs <;> rw [step_cons hs]
    · exact bufWrite_outside b ha
    · exact bufRead_outside ha

/-- Settles O7: every register reads as in State.reset, where it reads 0. -/
theorem resetClearsEveryRegister : Obligations.ResetClearsEveryRegister := by
  intro s rest hs
  refine ⟨(s.setScript rest).resetBlock, step_cons hs, rfl, rfl, fun r => ?_, fun r => ?_, rfl, rfl, rfl, rfl, rfl, rfl,
    rfl, rfl, rfl⟩
  · exact (RwReg.read_resetBlock _ r).trans r.read_reset
  · exact (RoReg.read_resetBlock _ r).trans r.read_reset

/-- Settles O8: the values of R40 meet the invariant and read 0. -/
theorem resetStateMeetsTheInvariant : Obligations.ResetStateMeetsTheInvariant :=
  ⟨resetBlock_inv (s := State.reset) (by decide), rfl, rfl, RwReg.read_reset, RoReg.read_reset, rfl, rfl, rfl⟩

/-- Settles O18: each field's place is the width of what stands below it. -/
theorem statusResAndCkstReadAsLaidOut : Obligations.StatusResAndCkstReadAsLaidOut := by
  intro s
  refine ⟨?_, ?_, Csu.word_toNat s.csu⟩
  · rw [RoReg.read, Status.word_toNat]
    rcases s.status.err with _ | e
    · rfl
    · cases e <;> rfl
  · have := s.res.isLt
    simp only [RoReg.read, BitVec.toNat_setWidth]
    omega

end Sys2Proof.Proofs
end

section
/-! PROOFS, family 10_state. The frames of R41, the stream behind the accumulator (R21), and the data offset after BLD.TCP and
DEC.TCP (R29). -/

namespace Sys2Proof.Machine

open Sys2Proof.Claims

/-! ### Frames -/

@[simp] theorem State.pbufByte_succeed (s : State) (x : Nat) : s.succeed.pbufByte x = s.pbufByte x := rfl

@[simp] theorem State.pbufByte_raise (s : State) (e : CmdError) (x : Nat) :
    (State.raise e s).pbufByte x = s.pbufByte x := rfl

/-! ### Storing commands -/

theorem storesOf_of_mem (s : State) {i : Instr}
    (h : i ∈ [Instr.encIp, .encIcmp, .encUdp, .encPsh, .encTcp, .udpPkt]) : ∃ w, storesOf s i = some w := by
  cases i with
  | encIp | encIcmp | encUdp | encPsh | encTcp | udpPkt => exact ⟨_, rfl⟩
  | _ => exact absurd h (by decide)

/-- A storing command leaves every byte outside its output range as it was, if n is the length of what it writes. -/
theorem exec_sameBytesOutside {i : Instr} {s t : State} {a n : Nat} {bs : List Byte} (h : exec i s = .next t)
    (hw : storesOf s i = some (a, bs)) (hn : firstFailure (checksOf s i) = none → bs.length = n) :
    SameBytesOutside s t a n := by
  intro x hx
  rcases exec_effect_or_nothing h with ⟨hc, st, rfl⟩ | ⟨st, rfl⟩
  · rw [effectOf_eq_emit hw]
    exact s.pbufByte_emit_outside a x bs (by rw [hn hc]; exact hx)
  · rfl

/-- What UDP.PKT checks and writes is a function of the arguments, the parameters and the bytes of PBUF (R196). -/
theorem pkt_congr {s s' : State} (ha : s'.args = s.args) (hp : s'.params = s.params)
    (hb : ∀ x, s'.pbufByte x = s.pbufByte x) : pktChecks s' = pktChecks s ∧ pktBytes s' = pktBytes s := by
  have hpay : pktPayload s' = pktPayload s := by
    rw [pktPayload, pktPayload, ha]
    exact State.memRead_congr s' s _ _ fun x _ _ => hb x
  have hip : pktIp s' = pktIp s := by simp only [pktIp, pktUdpLen, ha, hp]
  have hrange (a n : Nat) : s'.inRange a n = s.inRange a n := by rw [State.inRange, State.inRange, hp]
  constructor
  · rw [pktChecks, pktChecks, pktLen, pktLen, hrange, hrange, hip, ha]
  · simp only [pktBytes, pktUdp, pktUdp0, pktUdpLen, hip, hpay, ha]

/-! ### The stream behind the accumulator (R21, R108) -/

/-- The accumulator that has absorbed S from a sum acc with no byte waiting. -/
theorem absorb_from_even (acc : Half) (S : List Byte) :
    (absorb ⟨acc, false, 0⟩ S).acc = foldFrom acc (S.take (2 * (S.length / 2))) ∧
    (absorb ⟨acc, false, 0⟩ S).odd = (S.length % 2 == 1) ∧
    (absorb ⟨acc, false, 0⟩ S).hold = if S.length % 2 = 1 then S.getLastD 0 else 0 := by
  induction acc, S using foldFrom.induct with
  | case1 acc => exact ⟨rfl, rfl, rfl⟩
  | case2 acc b => simp [absorb, absorb1, foldFrom]
  | case3 acc b0 b1 rest ih =>
    obtain ⟨hacc, hodd, hhold⟩ := ih
    have hpair : absorb ⟨acc, false, 0⟩ (b0 :: b1 :: rest) = absorb ⟨add1c acc (u16be b0 b1), false, 0⟩ rest := rfl
    have hhalf : 2 * ((b0 :: b1 :: rest).length / 2) = 2 * (rest.length / 2) + 2 := by
      simp only [List.length_cons]
      omega
    have hmod : (b0 :: b1 :: rest).length % 2 = rest.length % 2 := by
      simp only [List.length_cons]
      omega
    rw [hpair, hhalf, hmod]
    refine ⟨hacc, hodd, ?_⟩
    rw [hhold]
    cases rest with
    | nil => rfl
    | cons b rest => rfl

theorem sourceBytes_eq (s : State) : sourceBytes s = s.memRead s.args.a0.toNat s.args.a1.toNat := rfl

/-- Only a command on a bank ends in an assertion, so one that fails it leaves the accumulator. -/
theorem effectOf_csu_of_verifiedOf_false {i : Instr} {s : State} (h : verifiedOf s i = false) :
    (effectOf s i).csu = s.csu := by
  cases i with
  | finIp | finIcmp | bldIp | bldIcmp => rfl
  | _ => cases h

/-- A command that ends with an error leaves the accumulator. -/
theorem exec_csu_of_err {i : Instr} {s t : State} (h : exec i s = .next t) (he : t.status.err ≠ none) :
    t.csu = s.csu := by
  rcases exec_cases h with ⟨-, -, rfl⟩ | ⟨-, hv, rfl⟩ | ⟨e, -, rfl⟩
  · exact absurd rfl he
  · exact effectOf_csu_of_verifiedOf_false hv
  · rfl

/-- A command that ends without error has passed its checks and had its effect. -/
theorem exec_of_err_none {i : Instr} {s t : State} (h : exec i s = .next t) (he : t.status.err = none) :
    firstFailure (checksOf s i) = none ∧ t = (effectOf s i).succeed := by
  rcases exec_cases h with ⟨hc, -, ht⟩ | ⟨-, -, rfl⟩ | ⟨e, -, rfl⟩
  · exact ⟨hc, ht⟩
  · cases he
  · cases he

/-! ### The TCP bank's invariant (R29) -/

theorem tcpBankOk_of_build (p : Params) (a : Args) : TcpBankOk (bldTcpBank p a) := by
  have hopt : bldTcpOptions p a.tcpFlags = mssOption ∨ bldTcpOptions p a.tcpFlags = [] := by
    unfold bldTcpOptions
    split
    · exact Or.inl rfl
    · exact Or.inr rfl
  simp only [TcpBankOk, bldTcpBank]
  rcases hopt with h | h <;> rw [h] <;> decide

/-- The bank of a parse whose data offset is at least the fixed header (R224). -/
theorem tcpBankOk_of_parse {s : State} (h : 20 ≤ decTcpOff s) : TcpBankOk (decTcpBank s) := by
  have hoff : decTcpOff s = 4 * ((decTcpHeader s).off.toNat / 16) := dataOffset_eq _
  have hlt := (decTcpHeader s).off.isLt
  have hlen : (decTcpBank s).optLen.toNat = decTcpOff s - 20 := by
    simp only [decTcpBank, Config.tcpHlen, BitVec.toNat_ofNat]
    omega
  have hhdr : (decTcpBank s).hdr = decTcpHeader s := rfl
  rw [TcpBankOk, hlen, hhdr]
  omega

theorem decTcpOff_ge_of_checks {s : State} (h : firstFailure (decTcpChecks s) = none) : 20 ≤ decTcpOff s := by
  have hall := (firstFailure_none_iff _).1 h
  have hlast := hall (decide (Config.tcpHlen ≤ decTcpOff s) && decide (decTcpOff s ≤ s.args.srcLen), .tcpFormat)
    (by simp [decTcpChecks])
  simp only [Bool.and_eq_true, decide_eq_true_eq] at hlast
  exact hlast.1

end Sys2Proof.Machine

namespace Sys2Proof.Proofs

open Sys2Proof.Machine Sys2Proof.Claims

/-- Settles O22, command by command. -/
theorem frameOfNopAndChecksumCommands : Obligations.FrameOfNopAndChecksumCommands := by
  intro i s t hi h
  rcases exec_effect_or_nothing h with ⟨-, st, rfl⟩ | ⟨st, rfl⟩
  · cases i with
    | nop => exact ⟨rfl, fun _ => rfl, fun _ => rfl, fun _ => rfl⟩
    | ckClr | ckAdd => exact ⟨rfl, fun _ => rfl, fun h => absurd h (by decide), fun _ => rfl⟩
    | ckGet => exact ⟨rfl, fun _ => rfl, fun _ => rfl, fun h => absurd h (by decide)⟩
    | ckSum => exact ⟨rfl, fun _ => rfl, fun h => absurd h (by decide), fun h => absurd h (by decide)⟩
    | _ => exact absurd hi (by decide)
  · exact ⟨rfl, fun _ => rfl, fun _ => rfl, fun _ => rfl⟩

/-- Settles O23, bank by bank. -/
theorem frameOfBankWritingCommands : Obligations.FrameOfBankWritingCommands := by
  intro s t
  refine ⟨fun i hi h => ?ip, fun i hi h => ?icmp, fun h => ?udp, fun i hi h => ?psh, fun i hi h => ?tcp,
    fun h => ?finIp, fun h => ?finIcmp⟩
  case ip | icmp =>
    rcases exec_effect_or_nothing h with ⟨-, st, rfl⟩ | ⟨st, rfl⟩
    · simp only [List.mem_cons, List.not_mem_nil, or_false] at hi
      rcases hi with rfl | rfl | rfl <;> exact ⟨rfl, fun _ => rfl⟩
    · exact ⟨rfl, fun _ => rfl⟩
  case udp =>
    rcases exec_effect_or_nothing h with ⟨-, st, rfl⟩ | ⟨st, rfl⟩ <;> exact ⟨rfl, fun _ => rfl⟩
  case psh | tcp =>
    rcases exec_effect_or_nothing h with ⟨-, st, rfl⟩ | ⟨st, rfl⟩
    · simp only [List.mem_cons, List.not_mem_nil, or_false] at hi
      rcases hi with rfl | rfl <;> exact ⟨rfl, fun _ => rfl⟩
    · exact ⟨rfl, fun _ => rfl⟩
  case finIp | finIcmp => rcases exec_effect_or_nothing h with ⟨-, st, rfl⟩ | ⟨st, rfl⟩ <;> rfl

/-- Settles O24: each of the six commands' effect is one emit, whose length the checks fix. -/
theorem frameOfStoringCommands : Obligations.FrameOfStoringCommands := by
  intro s t
  refine ⟨fun i hi h => ?_, fun h => exec_sameBytesOutside h rfl fun _ => rfl,
    fun h => exec_sameBytesOutside h rfl fun _ => rfl, fun h => exec_sameBytesOutside h rfl fun _ => rfl,
    fun h => exec_sameBytesOutside h rfl fun _ => rfl,
    fun h => exec_sameBytesOutside h rfl encTcpBytes_length_of_checks,
    fun h => exec_sameBytesOutside h rfl fun _ => pktBytes_length s⟩
  rcases exec_effect_or_nothing h with ⟨-, st, rfl⟩ | ⟨st, rfl⟩
  · obtain ⟨⟨a, bs⟩, hw⟩ := storesOf_of_mem s hi
    rw [effectOf_eq_emit hw]
    rfl
  · rfl

/-- Settles O26: equal checks, equal bytes written, at an equal address. -/
theorem udpPktReadsNoBank : Obligations.UdpPktReadsNoBank := by
  intro s s' ha hp hb
  obtain ⟨hchecks, hbytes⟩ := pkt_congr ha hp hb
  refine ⟨_, _, rfl, rfl, ?_⟩
  rw [hchecks, hbytes, ha]
  cases hf : firstFailure (pktChecks s) with
  | none =>
    have hpass := (firstFailure_none_iff _).1 hf
    rw [State.command_succeeds _ _ _ hpass, State.command_succeeds _ _ _ hpass]
    simp [State.pbufByte_emit, hb]
  | some e =>
    rw [State.command_raises _ _ _ e hf, State.command_raises _ _ _ e hf]
    simp [hb]

/-- Settles O32: the stream two bytes at a time; then only CK.CLR, CK.ADD and CK.SUM, without error, write the accumulator. -/
theorem accumulatorTracksTheAbsorbedStream : Obligations.AccumulatorTracksTheAbsorbedStream := by
  refine ⟨absorb_from_even 0, fun i s t S hS h => ?_⟩
  by_cases he : t.status.err = none
  · obtain ⟨-, rfl⟩ := exec_of_err_none h he
    rw [if_neg (not_not.2 he), State.succeed_csu]
    cases i with
    | ckClr => rfl
    | ckAdd =>
      rw [absorb_append, ← hS]
      exact congrArg (absorb s.csu) (sourceBytes_eq s)
    | ckSum => exact congrArg (absorb Csu.clear) (sourceBytes_eq s)
    | _ => simpa [effectOf] using hS
  · rw [if_pos he, exec_csu_of_err h he, hS]

/-- Settles O51: BLD.TCP has 0 or 4 option bytes; a parse without error has a data offset of at least 20. -/
theorem dataOffsetAgreesAfterBuildAndParse : Obligations.DataOffsetAgreesAfterBuildAndParse := by
  refine ⟨fun s t h => ?_, fun s t h he => ?_⟩
  · cases h
    exact tcpBankOk_of_build s.params s.args
  · obtain ⟨hc, rfl⟩ := exec_of_err_none h he
    exact tcpBankOk_of_parse (decTcpOff_ge_of_checks hc)

end Sys2Proof.Proofs
end

section
/-! PROOFS, family 20_memory. What a transaction leaves of the host's side (R38, R60), and a host write of one PBUF byte
(R37, R59). -/

namespace Sys2Proof.Machine

/-! ### Parameters, script and the choice of unwritten bytes -/

/-- Writing a command word leaves parameters, script and epoch, whether or not a command runs. -/
theorem issueCommand_keeps {w : Word} {s t : State} (h : issueCommand w s = .next t) :
    t.params = s.params ∧ t.script = s.script ∧ t.epoch = s.epoch := by
  rcases issueCommand_cases w s with ⟨-, e⟩ | ⟨-, i, -, e⟩ | ⟨-, -, e⟩
  · cases e ▸ h
    exact ⟨rfl, rfl, rfl⟩
  · obtain ⟨-, -, hepoch, hparams, hscript, -⟩ := exec_keeps (e ▸ h)
    exact ⟨hparams, hscript, hepoch⟩
  · cases e ▸ h
    exact ⟨rfl, rfl, rfl⟩

/-- No transaction writes parameters or script, and only reset writes the epoch (R38, R290). -/
theorem transact_keeps {x : Transaction} {s t : State} (h : transact x s = .next t) :
    t.params = s.params ∧ t.script = s.script ∧ (x ≠ .reset → t.epoch = s.epoch) := by
  rcases transact_cases h with ⟨w, hw⟩ | ⟨r, v, rfl⟩ | ⟨v, rfl⟩ | ⟨a, b, -, rfl⟩ | ⟨hx, rfl⟩
  · obtain ⟨hparams, hscript, hepoch⟩ := issueCommand_keeps hw
    exact ⟨hparams, hscript, fun _ => hepoch⟩
  · obtain ⟨-, -, -, -, -, -, hepoch, hparams, hscript, -⟩ := RwReg.write_keeps s v r
    exact ⟨hparams, hscript, fun _ => hepoch⟩
  · exact ⟨rfl, rfl, fun _ => rfl⟩
  · exact ⟨rfl, rfl, fun _ => rfl⟩
  · exact ⟨rfl, rfl, fun hne => absurd hx hne⟩

/-! ### One PBUF byte -/

theorem bufWrite_inside {s : State} {a : Word} (b : Byte) (h : a.toNat < s.params.pbufSize) :
    bufWrite a b s = .next (s.memWrite a.toNat [b]) := if_pos h

/-- The bytes after a store of one byte. -/
theorem State.pbufByte_memWrite_one (s : State) (a x : Nat) (b : Byte) :
    (s.memWrite a [b]).pbufByte x = if x = a then b else s.pbufByte x := by
  rw [State.pbufByte_memWrite]
  by_cases hx : x = a
  · simp [hx]
  · rw [if_neg (by rw [List.length_singleton]; omega), if_neg hx]

end Sys2Proof.Machine

namespace Sys2Proof.Proofs

open Sys2Proof.Machine Sys2Proof.Claims

/-- Settles O12: the step takes the transaction off the script, and what the transaction then does leaves the rest. -/
theorem stepTakesOneTransactionAndKeepsParameters : Obligations.StepTakesOneTransactionAndKeepsParameters := by
  intro s t h
  obtain ⟨x, rest, hs, hx⟩ := step_transact h
  obtain ⟨hparams, hscript, hepoch⟩ := transact_keeps hx
  refine ⟨hparams, ⟨x, hscript ▸ hs⟩, fun hnr => hepoch fun hr => hnr ?_⟩
  rw [hs, hr]
  rfl

/-- Settles O15: the step is a store of one byte, read back address by address. -/
theorem hostBufferWriteChangesOneByte : Obligations.HostBufferWriteChangesOneByte := by
  intro s a b rest ha hs
  refine ⟨(s.setScript rest).memWrite a.toNat [b], ?_, ?_, fun x hx => ?_, rfl⟩
  · rw [step_cons hs]
    exact bufWrite_inside b ha
  · rw [State.pbufByte_memWrite_one, if_pos rfl]
  · rw [State.pbufByte_memWrite_one, if_neg hx]
    rfl

end Sys2Proof.Proofs
end

section
/-! PROOFS, family 30_encoding. The command word: what the decoder accepts is what the encoder writes (R71 to R75). Then the
command a CMD write runs (R70), and narrow operands (R77). -/

namespace Sys2Proof

open Sys2Proof.Claims

/-! ### Encoding, then decoding -/

/-- The law of each command, for all of them. -/
theorem decode_encode (i : Instr) (hasTcp : Bool) : decode hasTcp (encode i) = .ok i ↔ i.wellFormed hasTcp = true :=
  match i with
  | .nop => Laws.Encoding.nop hasTcp
  | .ckClr => Laws.Encoding.ckClr hasTcp
  | .ckAdd => Laws.Encoding.ckAdd hasTcp
  | .ckGet => Laws.Encoding.ckGet hasTcp
  | .ckSum => Laws.Encoding.ckSum hasTcp
  | .encIp => Laws.Encoding.encIp hasTcp
  | .encIcmp => Laws.Encoding.encIcmp hasTcp
  | .encUdp => Laws.Encoding.encUdp hasTcp
  | .encPsh => Laws.Encoding.encPsh hasTcp
  | .encTcp => Laws.Encoding.encTcp hasTcp
  | .decIp => Laws.Encoding.decIp hasTcp
  | .decIcmp => Laws.Encoding.decIcmp hasTcp
  | .decUdp => Laws.Encoding.decUdp hasTcp
  | .decPsh => Laws.Encoding.decPsh hasTcp
  | .decTcp => Laws.Encoding.decTcp hasTcp
  | .finIp => Laws.Encoding.finIp hasTcp
  | .finIcmp => Laws.Encoding.finIcmp hasTcp
  | .bldIp => Laws.Encoding.bldIp hasTcp
  | .bldIcmp => Laws.Encoding.bldIcmp hasTcp
  | .udpPkt => Laws.Encoding.udpPkt hasTcp
  | .bldPsh => Laws.Encoding.bldPsh hasTcp
  | .bldTcp => Laws.Encoding.bldTcp hasTcp

/-! ### Decoding, then encoding -/

/-- A word is its three fields (R71). -/
theorem word_eq_fields (w : Word) : w = wordZero w ++ wordHt w ++ wordOpc w := by
  unfold wordZero wordHt wordOpc
  rw [BitVec.extractLsb'_append_extractLsb'_eq_extractLsb' (by rfl),
    BitVec.extractLsb'_append_extractLsb'_eq_extractLsb' (by rfl)]
  exact BitVec.extractLsb'_eq_self.symm

theorem word_eq_commandWord {w : Word} (h : wordZero w = 0#20) : w = commandWord (wordHt w) (wordOpc w) := by
  rw [commandWord, ← h]
  exact word_eq_fields w

/-- What an operation without header type decodes to has the word of the HT read, if i is its command. -/
theorem encode_of_decodePlain {ht : BitVec 4} {opc : Byte} {i j : Instr} (hi : encode i = commandWord 0#4 opc)
    (h : decodePlain ht i = .ok j) : encode j = commandWord ht opc := by
  unfold decodePlain at h
  split at h
  · next hht =>
    cases h
    rw [hht, hi]
  · cases h

/-- What a typed operation decodes to has the word of the HT read, if the five commands are its own in the order of R72. -/
theorem encode_of_decodeTyped {hasTcp : Bool} {ht : BitVec 4} {opc : Byte} {ip icmp udp psh tcp j : Instr}
    (hip : encode ip = commandWord 0#4 opc) (hicmp : encode icmp = commandWord 1#4 opc)
    (hudp : encode udp = commandWord 2#4 opc) (hpsh : encode psh = commandWord 3#4 opc)
    (htcp : encode tcp = commandWord 4#4 opc) (h : decodeTyped hasTcp ht ip icmp udp psh tcp = .ok j) :
    encode j = commandWord ht opc := by
  unfold decodeTyped at h
  split_ifs at h with h0 h1 h2 h3 h4 <;> cases h
  · rw [h0, hip]
  · rw [h1, hicmp]
  · rw [h2, hudp]
  · rw [h3, hpsh]
  · rw [h4, htcp]

theorem encode_of_decodeFin {ht : BitVec 4} {j : Instr} (h : decodeFin ht = .ok j) :
    encode j = commandWord ht 0x22#8 := by
  unfold decodeFin at h
  split_ifs at h with h0 h1 <;> cases h
  · rw [h0, encode]
  · rw [h1, encode]

/-- A word that decodes is the word of the command: ZERO is zero, and the row of OPC holds the command in the column of HT. -/
theorem encode_of_decode {hasTcp : Bool} {w : Word} {i : Instr} (h : decode hasTcp w = .ok i) : encode i = w := by
  unfold decode at h
  split at h
  · cases h
  · next hz =>
    rw [word_eq_commandWord (not_not.1 hz)]
    split_ifs at h with hopc hopc hopc hopc hopc hopc hopc hopc hopc
    · exact hopc ▸ encode_of_decodePlain rfl h
    · exact hopc ▸ encode_of_decodePlain rfl h
    · exact hopc ▸ encode_of_decodePlain rfl h
    · exact hopc ▸ encode_of_decodePlain rfl h
    · exact hopc ▸ encode_of_decodePlain rfl h
    · exact hopc ▸ encode_of_decodeTyped rfl rfl rfl rfl rfl h
    · exact hopc ▸ encode_of_decodeTyped rfl rfl rfl rfl rfl h
    · exact hopc ▸ encode_of_decodeFin h
    · exact hopc ▸ encode_of_decodeTyped rfl rfl rfl rfl rfl h

/-- The decoder accepts exactly the words of the well-formed commands (R75, R78). -/
theorem decode_eq_ok_iff (hasTcp : Bool) (w : Word) (i : Instr) :
    decode hasTcp w = .ok i ↔ w = encode i ∧ i.wellFormed hasTcp = true := by
  constructor
  · intro h
    have hw : encode i = w := encode_of_decode h
    exact ⟨hw.symm, (decode_encode i hasTcp).1 (hw ▸ h)⟩
  · rintro ⟨rfl, hwf⟩
    exact (decode_encode i hasTcp).2 hwf

/-! ### The table of R74 -/

theorem encode_eq_tableWord (i : Instr) : encode i = tableWord i := by
  cases i <;> rfl

theorem commandPresent_iff (hasTcp : Bool) (i : Instr) : CommandPresent hasTcp i ↔ i.wellFormed hasTcp = true := by
  cases i <;> simp [CommandPresent, Instr.wellFormed, Instr.usesTcp]

end Sys2Proof

namespace Sys2Proof.Machine

/-! ### The command a CMD write runs (R70) -/

theorem issueCommand_of_decode {s : State} {w : Word} {i : Instr} (hh : s.status.halt = false)
    (hd : decode s.params.hasTcp w = .ok i) : issueCommand w s = exec i (s.setCmd w) := by
  simp [issueCommand, hh, hd]

/-- A step that writes a word to CMD which decodes, the block not halted, is the decoded command. -/
theorem step_command {s : State} {w : Word} {rest : List Transaction} {i : Instr}
    (hs : s.script = .regWrite Reg.cmd.offset w :: rest) (hh : s.status.halt = false)
    (hd : decode s.params.hasTcp w = .ok i) : step s = exec i ((s.setScript rest).setCmd w) := by
  rw [step_cons hs, transact_command]
  exact issueCommand_of_decode hh hd

theorem State.withFetchWord_toNat (s : State) (w : Word) : s.withFetchWord 32 w.toNat = s.withCommand w := by
  rw [State.withFetchWord, Nat.mod_eq_of_lt w.isLt, BitVec.ofNat_toNat, BitVec.setWidth_eq]

/-! ### Narrow operands (R77) -/

theorem lowHalf_congr {v w : Word} (h : v.toNat % 2 ^ 16 = w.toNat % 2 ^ 16) : lowHalf v = lowHalf w :=
  BitVec.eq_of_toNat_eq (by simpa only [lowHalf, BitVec.extractLsb'_toNat, Nat.shiftRight_zero] using h)

theorem lowByte_congr {v w : Word} (h : v.toNat % 2 ^ 8 = w.toNat % 2 ^ 8) : lowByte v = lowByte w :=
  BitVec.eq_of_toNat_eq (by simpa only [lowByte, BitVec.extractLsb'_toNat, Nat.shiftRight_zero] using h)

/-- How a command ends does not depend on the argument registers. -/
theorem State.finalizing_setArgs (s effect : State) (a : Args) (checks : List Check) (verified : Bool) :
    (s.setArgs a).finalizing checks (effect.setArgs a) verified = (s.finalizing checks effect verified).setArgs a := by
  unfold State.finalizing
  cases firstFailure checks with
  | none => cases verified <;> rfl
  | some e => rfl

/-- Arguments that give a command the same checks, effect and assertion give it the same answer, themselves apart. -/
theorem exec_setArgs {i : Instr} {s : State} {a : Args} (hc : checksOf (s.setArgs a) i = checksOf s i)
    (he : effectOf (s.setArgs a) i = (effectOf s i).setArgs a) (hv : verifiedOf (s.setArgs a) i = verifiedOf s i) :
    ∃ t, exec i s = .next t ∧ exec i (s.setArgs a) = .next (t.setArgs a) := by
  refine ⟨_, exec_eq i s, ?_⟩
  rw [exec_eq, hc, he, hv, State.finalizing_setArgs]

/-- BLD.TCP uses flags, its one narrow operand, by the low byte of a5 (R76, R226). -/
theorem bldTcpBank_congr_flags (p : Params) (a : Args) {v : Word} (h : lowByte v = lowByte a.a5) :
    bldTcpBank p { a with a5 := v } = bldTcpBank p a := by
  have hflags : ({ a with a5 := v } : Args).tcpFlags = a.tcpFlags := h
  simp only [bldTcpBank, hflags]
  rfl

end Sys2Proof.Machine

namespace Sys2Proof.Proofs

open Sys2Proof.Machine Sys2Proof.Claims

/-- Settles O3: both directions of what the decoder accepts. -/
theorem decodeAndEncodeAgree : Obligations.DecodeAndEncodeAgree := by
  refine ⟨fun hasTcp i => (decode_encode i hasTcp).2, fun hasTcp w i h => ?_⟩
  obtain ⟨hw, hwf⟩ := (decode_eq_ok_iff hasTcp w i).1 h
  exact ⟨hw.symm, hwf⟩

/-- Settles O2: the encoder's words are the table's, and the well-formed commands are those present. -/
theorem decodeSelectsExactlyTheTableWord : Obligations.DecodeSelectsExactlyTheTableWord := by
  intro hasTcp w i
  rw [decode_eq_ok_iff, encode_eq_tableWord, commandPresent_iff]

/-- Settles O25: each command reads its narrow operands by their low bits only. -/
theorem narrowOperandsIgnoreUpperBits : Obligations.NarrowOperandsIgnoreUpperBits := by
  intro s a
  refine ⟨fun h0 => ?icmp, fun h0 => ?psh, fun h0 h1 h2 => ?ip, fun h5 hrest => ?tcp⟩
  case icmp =>
    have hseq : a.icmpSeq = s.args.icmpSeq := lowHalf_congr h0
    obtain ⟨t, ht, hu⟩ := exec_setArgs (i := .bldIcmp) (s := s) (a := a) rfl
      (by simp only [effectOf, State.setArgs_params, State.setArgs_args, hseq]; rfl)
      (by simp only [verifiedOf, State.setArgs_params, State.setArgs_args, hseq])
    exact ⟨t, t.setArgs a, ht, hu, rfl⟩
  case psh =>
    have hlen : a.pshLen = s.args.pshLen := lowHalf_congr h0
    obtain ⟨t, ht, hu⟩ := exec_setArgs (i := .bldPsh) (s := s) (a := a) rfl
      (by simp only [effectOf, State.setArgs_ip, State.setArgs_args, hlen]; rfl) rfl
    exact ⟨t, t.setArgs a, ht, hu, rfl⟩
  case ip =>
    have hlen : a.ipPayloadLen = s.args.ipPayloadLen := lowHalf_congr h0
    have hproto : a.ipProto = s.args.ipProto := lowByte_congr h1
    have hdst : a.ipDst = s.args.ipDst := h2
    have hhdr : bldIpHeader (s.setArgs a) = bldIpHeader s := by
      simp only [bldIpHeader, State.setArgs_params, State.setArgs_args, hlen, hproto, hdst]
    obtain ⟨t, ht, hu⟩ := exec_setArgs (i := .bldIp) (s := s) (a := a)
      (by simp only [checksOf, State.setArgs_args, hlen])
      (by simp only [effectOf, hhdr]; rfl)
      (by simp only [verifiedOf, hhdr])
    exact ⟨t, t.setArgs a, ht, hu, rfl, rfl⟩
  case tcp =>
    have hbank : bldTcpBank s.params a = bldTcpBank s.params s.args := by
      rw [← hrest]
      exact (bldTcpBank_congr_flags s.params a (lowByte_congr h5.symm)).symm
    obtain ⟨t, ht, hu⟩ := exec_setArgs (i := .bldTcp) (s := s) (a := a) rfl
      (by simp only [effectOf, State.setArgs_params, State.setArgs_args, hbank]; rfl) rfl
    exact ⟨t, t.setArgs a, ht, hu, rfl⟩

/-- Settles O1: the decoder evaluated on the ten words. -/
theorem commandWordSamplesDecode : Obligations.CommandWordSamplesDecode := by
  unfold Obligations.CommandWordSamplesDecode
  decide

/-- Settles O4: the head of the script is the CMD write, whether the host or withFetchWord put it there. -/
theorem stepRunsTheDecodedCommand : Obligations.StepRunsTheDecodedCommand := by
  refine ⟨fun s w rest i hs hh hd => step_command hs hh hd, fun s w i hh hd => ?_⟩
  rw [s.withFetchWord_toNat w]
  exact step_command (s.withCommand_script w) hh hd

end Sys2Proof.Proofs
end

section
/-! PROOFS, family 40_checksum. End-around-carry addition, and the closed form of fold (R100 to R105): both are the sum of
natural numbers, reduced once by onesReduce. -/

namespace Sys2Proof.Machine

open Sys2Proof.Claims

/-! ### Reduction with end-around carry (R101 (d), (g)) -/

/-- What 16-bit addition with end-around carry leaves of a sum n: 0 if n is 0, else the representative of n modulo 65535 in
1..65535 (R101 (g)). -/
def onesReduce (n : Nat) : Nat := if n = 0 then 0 else (n - 1) % 65535 + 1

theorem onesReduce_of_pos {n : Nat} (h : n ≠ 0) : onesReduce n = (n - 1) % 65535 + 1 := if_neg h

theorem onesReduce_eq_zero_iff (n : Nat) : onesReduce n = 0 ↔ n = 0 := by
  unfold onesReduce
  split <;> omega

/-- The all-ones representative is that of the non-zero multiples of 65535. -/
theorem onesReduce_eq_max_iff (n : Nat) : onesReduce n = 65535 ↔ n ≠ 0 ∧ 65535 ∣ n := by
  unfold onesReduce
  split <;> omega

theorem onesReduce_mod (n : Nat) : onesReduce n % 65535 = n % 65535 := by
  unfold onesReduce
  split <;> omega

theorem onesReduce_of_le {n : Nat} (h : n ≤ 65535) : onesReduce n = n := by
  unfold onesReduce
  split <;> omega

theorem onesReduce_le (n : Nat) : onesReduce n ≤ 65535 := by
  unfold onesReduce
  split <;> omega

/-- Reducing a summand first changes nothing. -/
theorem onesReduce_add_left (m n : Nat) : onesReduce (onesReduce m + n) = onesReduce (m + n) := by
  have hmod := onesReduce_mod m
  have hzero := onesReduce_eq_zero_iff m
  generalize onesReduce m = r at hmod hzero
  unfold onesReduce
  split <;> split <;> omega

theorem onesReduce_add_right (m n : Nat) : onesReduce (m + onesReduce n) = onesReduce (m + n) := by
  rw [Nat.add_comm, onesReduce_add_left, Nat.add_comm]

/-- A sum and the complement of its reduction give all ones (R101 (f)). -/
theorem onesReduce_add_complement (n : Nat) : onesReduce (n + (65535 - onesReduce n)) = 65535 := by
  have hle := onesReduce_le n
  rw [← onesReduce_add_left, Nat.add_sub_cancel' hle]
  rfl

/-! ### add1c (R100) -/

/-- The value of an end-around-carry sum. -/
theorem add1c_toNat (a b : Half) : (add1c a b).toNat = onesReduce (a.toNat + b.toNat) := by
  have ha := a.isLt
  have hb := b.isLt
  unfold add1c
  split
  · next hcarry =>
    rw [BitVec.toNat_ofNat, onesReduce_of_pos (by omega)]
    omega
  · next hfits =>
    rw [BitVec.toNat_ofNat, onesReduce_of_le (by omega)]
    omega

theorem add1c_comm (a b : Half) : add1c a b = add1c b a :=
  BitVec.eq_of_toNat_eq (by rw [add1c_toNat, add1c_toNat, Nat.add_comm])

theorem add1c_assoc (a b c : Half) : add1c (add1c a b) c = add1c a (add1c b c) :=
  BitVec.eq_of_toNat_eq (by
    simp only [add1c_toNat, onesReduce_add_left, onesReduce_add_right, Nat.add_assoc])

theorem add1c_zero (a : Half) : add1c a 0x0000#16 = a := by
  have ha := a.isLt
  exact BitVec.eq_of_toNat_eq ((add1c_toNat a _).trans (onesReduce_of_le (by simp; omega)))

theorem half_eq_zero_iff (a : Half) : a = 0x0000#16 ↔ a.toNat = 0 := BitVec.toNat_eq

theorem add1c_eq_zero_iff (a b : Half) : add1c a b = 0x0000#16 ↔ a = 0x0000#16 ∧ b = 0x0000#16 := by
  simp only [half_eq_zero_iff, add1c_toNat, onesReduce_eq_zero_iff, Nat.add_eq_zero_iff]

theorem add1c_allOnes {a : Half} (h : a ≠ 0x0000#16) : add1c a 0xFFFF#16 = a := by
  have ha := a.isLt
  have hpos : a.toNat ≠ 0 := fun e => h ((half_eq_zero_iff a).2 e)
  refine BitVec.eq_of_toNat_eq ?_
  rw [add1c_toNat, show (0xFFFF#16).toNat = 65535 from rfl, onesReduce_of_pos (by omega)]
  omega

/-- No carry arises in adding the complement (R101 (f)). -/
theorem add1c_not (a : Half) : add1c a (~~~a) = 0xFFFF#16 ∧ a.toNat + (~~~a).toNat = 0xFFFF := by
  have ha := a.isLt
  have hsum : a.toNat + (~~~a).toNat = 0xFFFF := by
    rw [BitVec.toNat_not]
    omega
  exact ⟨BitVec.eq_of_toNat_eq (by rw [add1c_toNat, hsum]; rfl), hsum⟩

/-! ### The groups of a byte list (R103) -/

theorem u16be_toNat (hi lo : Byte) : (u16be hi lo).toNat = 256 * hi.toNat + lo.toNat := by
  rw [u16be, toNat_append_eq_add]
  omega

theorem u16be_eq_zero_iff (hi lo : Byte) : u16be hi lo = 0x0000#16 ↔ hi = 0x00#8 ∧ lo = 0x00#8 := by
  have hbyte (b : Byte) : b = 0x00#8 ↔ b.toNat = 0 := BitVec.toNat_eq
  rw [half_eq_zero_iff, hbyte, hbyte, u16be_toNat]
  omega

@[simp] theorem groupSum_nil : groupSum [] = 0 := rfl

@[simp] theorem groupSum_singleton (b : Byte) : groupSum [b] = (u16be b 0x00#8).toNat := rfl

@[simp] theorem groupSum_cons_cons (b0 b1 : Byte) (rest : List Byte) :
    groupSum (b0 :: b1 :: rest) = (u16be b0 b1).toNat + groupSum rest := rfl

/-- After a list of even length the pairing starts afresh. -/
theorem groupSum_append (as bs : List Byte) (h : as.length % 2 = 0) :
    groupSum (as ++ bs) = groupSum as + groupSum bs := by
  induction as using groups.induct with
  | case1 => rw [List.nil_append, groupSum_nil, Nat.zero_add]
  | case2 b => cases h
  | case3 b0 b1 rest ih =>
    have hrest : rest.length % 2 = 0 := by
      simp only [List.length_cons] at h
      omega
    rw [List.cons_append, List.cons_append, groupSum_cons_cons, groupSum_cons_cons, ih hrest, Nat.add_assoc]

/-- The two bytes of a u16 are one group. -/
theorem groupSum_be16_append (v : Half) (bs : List Byte) : groupSum (be16 v ++ bs) = v.toNat + groupSum bs := by
  rw [be16, List.cons_append, List.cons_append, List.nil_append, groupSum_cons_cons, u16be_be16]

/-- A trailing zero byte pads what was padded anyway, or makes a zero group (R105). -/
theorem groupSum_append_zero (bs : List Byte) : groupSum (bs ++ [0x00#8]) = groupSum bs := by
  induction bs using groups.induct with
  | case1 => rfl
  | case2 b => rfl
  | case3 b0 b1 rest ih => rw [List.cons_append, List.cons_append, groupSum_cons_cons, groupSum_cons_cons, ih]

theorem groups_eq_zero_iff (bs : List Byte) : (∀ g ∈ groups bs, g = 0x0000#16) ↔ ∀ b ∈ bs, b = 0x00#8 := by
  induction bs using groups.induct with
  | case1 => simp [groups]
  | case2 b => simp [groups, u16be_eq_zero_iff]
  | case3 b0 b1 rest ih => simp [groups, u16be_eq_zero_iff, ih, and_assoc]

theorem groupSum_eq_zero_iff (bs : List Byte) : groupSum bs = 0 ↔ ∀ g ∈ groups bs, g = 0x0000#16 := by
  simp only [groupSum, List.sum_eq_zero_iff, List.forall_mem_map, half_eq_zero_iff]

/-! ### fold and compute (R102 to R105) -/

theorem foldFrom_toNat (acc : Half) (bs : List Byte) :
    (foldFrom acc bs).toNat = onesReduce (acc.toNat + groupSum bs) := by
  induction acc, bs using foldFrom.induct with
  | case1 acc =>
    have hacc := acc.isLt
    rw [foldFrom, groupSum_nil, Nat.add_zero, onesReduce_of_le (by omega)]
  | case2 acc b => rw [foldFrom, add1c_toNat, groupSum_singleton]
  | case3 acc b0 b1 rest ih => rw [foldFrom, ih, add1c_toNat, onesReduce_add_left, groupSum_cons_cons, Nat.add_assoc]

/-- The value of fold: the sum of the groups, reduced once (R103). -/
theorem fold_toNat (bs : List Byte) : (fold bs).toNat = onesReduce (groupSum bs) := by
  rw [fold, foldFrom_toNat, BitVec.toNat_ofNat, Nat.zero_mod, Nat.zero_add]

theorem fold_eq_zero_iff (bs : List Byte) : fold bs = 0x0000#16 ↔ ∀ g ∈ groups bs, g = 0x0000#16 := by
  rw [half_eq_zero_iff, fold_toNat, onesReduce_eq_zero_iff, groupSum_eq_zero_iff]

theorem fold_eq_allOnes_iff (bs : List Byte) :
    fold bs = 0xFFFF#16 ↔ (∃ b ∈ bs, b ≠ 0x00#8) ∧ 65535 ∣ groupSum bs := by
  have hmax : fold bs = 0xFFFF#16 ↔ (fold bs).toNat = 65535 := BitVec.toNat_eq
  have hbytes : (∃ b ∈ bs, b ≠ 0x00#8) ↔ groupSum bs ≠ 0 := by
    simp [groupSum_eq_zero_iff, groups_eq_zero_iff]
  rw [hmax, fold_toNat, onesReduce_eq_max_iff, hbytes]

theorem fold_congr {as bs : List Byte} (h : groupSum as = groupSum bs) : fold as = fold bs :=
  BitVec.eq_of_toNat_eq (by rw [fold_toNat, fold_toNat, h])

theorem compute_eq_not_iff (bs : List Byte) (v : Half) : compute bs = ~~~v ↔ fold bs = v := BitVec.not_inj

end Sys2Proof.Machine

namespace Sys2Proof.Proofs

open Sys2Proof.Machine Sys2Proof.Claims

/-- Settles O33: each law is one of the natural sum, reduced by onesReduce. -/
theorem endAroundCarryAdditionLaws : Obligations.EndAroundCarryAdditionLaws := by
  refine ⟨add1c_comm, add1c_assoc, add1c_zero, add1c_eq_zero_iff, fun a h => add1c_allOnes h, by decide, add1c_not,
    fun a b => ?_, fun a b h => ?_⟩
  · rw [add1c_toNat, onesReduce_mod]
  · have hsum : a.toNat + b.toNat ≠ 0 := by
      rwa [half_eq_zero_iff, half_eq_zero_iff, ← Nat.add_eq_zero_iff] at h
    rw [add1c_toNat, onesReduce_of_pos hsum]

/-- Settles O34: fold is the groups' sum reduced once, and the sum is 0 exactly when every byte is. -/
theorem foldHasTheClosedForm : Obligations.FoldHasTheClosedForm := by
  refine fun bs => ⟨(fold_eq_zero_iff bs).2, fun ⟨g, hg, hne⟩ => ?_, fold_eq_allOnes_iff bs⟩
  have hsum : groupSum bs ≠ 0 := fun h => hne ((groupSum_eq_zero_iff bs).1 h g hg)
  rw [fold_toNat, onesReduce_of_pos hsum]

/-- Settles O35: compute is the complement of fold, so its corners are fold's. -/
theorem checksumCornerValues : Obligations.ChecksumCornerValues := by
  refine ⟨by decide, fun bs => ?_, fun bs => compute_eq_not_iff bs 0xFFFF#16, fun bs => ?_⟩
  · rw [← groups_eq_zero_iff, ← fold_eq_zero_iff]
    exact compute_eq_not_iff bs 0x0000#16
  · rw [compute, compute, fold_congr (groupSum_append_zero bs)]

end Sys2Proof.Proofs
end

section
/-! PROOFS, family 40_checksum. Closure (R106, R107): finalized bytes verify, so no command raises
ChecksumConsistencyViolation and no step halts the block. -/

namespace Sys2Proof.Machine

open Sys2Proof.Claims

/-! ### A checksum stored in the stream it is over -/

/-- Writing the checksum of a stream into the 16-bit field, at an even offset, that the stream holds as zero makes the stream
verify (R107): the field adds the complement of the sum to the sum. -/
theorem compute_checksum_inserted (pre post : List Byte) (h : pre.length % 2 = 0) :
    compute (pre ++ be16 (compute (pre ++ be16 0x0000#16 ++ post)) ++ post) = 0x0000#16 := by
  have hsum (v : Half) : groupSum (pre ++ be16 v ++ post) = groupSum pre + groupSum post + v.toNat := by
    rw [List.append_assoc, groupSum_append _ _ h, groupSum_be16_append]
    omega
  refine (compute_eq_not_iff _ 0xFFFF#16).2 (BitVec.eq_of_toNat_eq ?_)
  rw [fold_toNat, hsum, compute, BitVec.toNat_not, fold_toNat, hsum]
  exact onesReduce_add_complement _

/-! ### The three finalized sequences (R107) -/

/-- The bytes of an IPv4 header before its checksum field. -/
def ipBeforeCsum (h : IpHeader) : List Byte :=
  [h.vihl, h.tos] ++ be16 h.tlen ++ be16 h.id ++ be16 h.frag ++ [h.ttl, h.proto]

@[simp] theorem ipBeforeCsum_length (h : IpHeader) : (ipBeforeCsum h).length = 10 := rfl

theorem encodeIp_csum (h : IpHeader) (c : Half) :
    encodeIp { h with csum := c } = ipBeforeCsum h ++ be16 c ++ (be32 h.src ++ be32 h.dst) := rfl

theorem compute_finalizeIp (h : IpHeader) : compute (encodeIp (finalizeIp h)) = 0x0000#16 := by
  rw [finalizeIp, encodeIp_csum, encodeIp_csum]
  exact compute_checksum_inserted _ _ (by simp)

theorem encodeIcmp_csum (h : IcmpHeader) (c : Half) :
    encodeIcmp { h with csum := c } = [h.type, h.code] ++ be16 c ++ (be16 h.id ++ be16 h.seq) := rfl

theorem compute_finalizeIcmp (h : IcmpHeader) : compute (encodeIcmp (finalizeIcmp h)) = 0x0000#16 := by
  rw [finalizeIcmp, encodeIcmp_csum, encodeIcmp_csum]
  exact compute_checksum_inserted _ _ (by simp)

theorem encodeUdp_csum (u : UdpHeader) (c : Half) :
    encodeUdp { u with csum := c } = be16 u.sport ++ be16 u.dport ++ be16 u.len ++ be16 c := rfl

/-- The UDP sequence: pseudo-header, header, payload of any length. -/
theorem compute_udp_finalized (p : PshHeader) (u : UdpHeader) (payload : List Byte) :
    compute (encodePsh p ++
      encodeUdp { u with csum := compute (encodePsh p ++ encodeUdp { u with csum := 0x0000#16 } ++ payload) } ++
      payload) = 0x0000#16 := by
  simp only [encodeUdp_csum, ← List.append_assoc (encodePsh p)]
  exact compute_checksum_inserted _ _ (by simp)

/-! ### No command raises ChecksumConsistencyViolation (R107, R262) -/

theorem verifies_finalizeIp (h : IpHeader) : verifies (encodeIp (finalizeIp h)) = true :=
  beq_iff_eq.2 (compute_finalizeIp h)

theorem verifies_finalizeIcmp (h : IcmpHeader) : verifies (encodeIcmp (finalizeIcmp h)) = true :=
  beq_iff_eq.2 (compute_finalizeIcmp h)

/-- The assertion a command ends with holds. -/
theorem verifiedOf_eq_true (s : State) (i : Instr) : verifiedOf s i = true := by
  cases i with
  | finIp | bldIp => exact verifies_finalizeIp _
  | finIcmp | bldIcmp => exact verifies_finalizeIcmp _
  | _ => rfl

/-- No check of a command reports ChecksumConsistencyViolation; UDP.PKT's, of its transient header, passes. -/
theorem firstFailure_ne_consistencyViolation (s : State) (i : Instr) :
    firstFailure (checksOf s i) ≠ some .checksumConsistencyViolation := by
  intro h
  have hmem := firstFailure_mem _ _ h
  cases i with
  | udpPkt =>
    have hv : verifies (encodeIp (pktIp s)) = true := verifies_finalizeIp _
    simp [checksOf, pktChecks, hv] at hmem
  | _ => simp [checksOf, sourceChecks, encTcpChecks, decChecks, decTcpChecks] at hmem

/-- Everything exec can answer, by closure: the effect, all checks passed, or the first failing check's error. -/
theorem exec_succeeds_or_raises {i : Instr} {s t : State} (h : exec i s = .next t) :
    (firstFailure (checksOf s i) = none ∧ t = (effectOf s i).succeed) ∨
    (∃ e, e ≠ .checksumConsistencyViolation ∧ firstFailure (checksOf s i) = some e ∧ t = s.raise e) := by
  rcases exec_cases h with ⟨hc, -, ht⟩ | ⟨-, hv, -⟩ | ⟨e, hc, ht⟩
  · exact Or.inl ⟨hc, ht⟩
  · rw [verifiedOf_eq_true] at hv
    cases hv
  · exact Or.inr ⟨e, fun he => firstFailure_ne_consistencyViolation s i (he ▸ hc), hc, ht⟩

theorem exec_err_ne_consistencyViolation {i : Instr} {s t : State} (h : exec i s = .next t) :
    t.status.err ≠ some .checksumConsistencyViolation := by
  rcases exec_succeeds_or_raises h with ⟨-, rfl⟩ | ⟨e, he, -, rfl⟩
  · exact nofun
  · exact fun heq => he (Option.some.inj heq)

theorem CmdError.halts_eq_false {e : CmdError} (h : e ≠ .checksumConsistencyViolation) : e.halts = false := by
  cases e with
  | checksumConsistencyViolation => exact absurd rfl h
  | _ => rfl

/-- Only ChecksumConsistencyViolation halts (R268). -/
theorem State.running_raise {s : State} {e : CmdError} (hr : s.running) (he : e ≠ .checksumConsistencyViolation) :
    (State.raise e s).running := by
  rw [State.running, State.raise_status, Status.afterError_halt, CmdError.halts_eq_false he, Bool.or_false]
  exact hr

theorem exec_keeps_running {i : Instr} {s t : State} (hr : s.running) (h : exec i s = .next t) : t.running := by
  rcases exec_succeeds_or_raises h with ⟨-, rfl⟩ | ⟨e, he, -, rfl⟩
  · rw [State.running, State.succeed_status, Status.afterSuccess_halt, effectOf_status]
    exact hr
  · exact State.running_raise hr he

theorem issueCommand_keeps_running {w : Word} {s t : State} (hr : s.running) (h : issueCommand w s = .next t) :
    t.running := by
  rcases issueCommand_cases w s with ⟨-, e⟩ | ⟨-, i, -, e⟩ | ⟨-, -, e⟩
  · cases e ▸ h
    exact hr
  · exact exec_keeps_running (s := s.setCmd w) hr (e ▸ h)
  · cases e ▸ h
    exact State.running_raise (s := s.setCmd w) hr nofun

theorem transact_keeps_running {x : Transaction} {s t : State} (hr : s.running) (h : transact x s = .next t) :
    t.running := by
  rcases transact_cases h with ⟨w, hw⟩ | ⟨r, v, rfl⟩ | ⟨v, rfl⟩ | ⟨a, b, -, rfl⟩ | ⟨-, rfl⟩
  · exact issueCommand_keeps_running hr hw
  · obtain ⟨-, -, hstatus, -⟩ := RwReg.write_keeps s v r
    rwa [State.running, hstatus]
  · exact hr
  · exact hr
  · rfl

end Sys2Proof.Machine

namespace Sys2Proof.Proofs

open Sys2Proof.Machine Sys2Proof.Claims

/-- Settles O36: in each sequence the checksum field is a group of its own, and holds the complement of the rest's sum. -/
theorem finalizedBytesVerify : Obligations.FinalizedBytesVerify :=
  ⟨compute_finalizeIp, compute_finalizeIcmp, compute_udp_finalized, fun _ _ _ h => exec_err_ne_consistencyViolation h⟩

/-- Settles O10: transaction by transaction; closure keeps a command from halting the block. -/
theorem noStepHaltsTheBlock : Obligations.NoStepHaltsTheBlock := by
  intro s t hr h
  obtain ⟨x, rest, -, hx⟩ := step_transact h
  exact transact_keeps_running (s := s.setScript rest) hr hx

end Sys2Proof.Proofs
end

section
/-! PROOFS, family 40_checksum. The checksum unit (R108) and its four commands (R110 to R113). -/

namespace Sys2Proof.Machine

open Sys2Proof.Claims

/-! ### The read-out of the absorbed stream (R108) -/

theorem absorb_final_from_even (acc : Half) (bs : List Byte) : (absorb ⟨acc, false, 0⟩ bs).final = foldFrom acc bs := by
  induction acc, bs using foldFrom.induct with
  | case1 acc => rfl
  | case2 acc b => rfl
  | case3 acc b0 b1 rest ih => exact ih

theorem absorb_clear_final (bs : List Byte) : (absorb Csu.clear bs).final = fold bs :=
  absorb_final_from_even 0x0000#16 bs

theorem not_absorb_clear_final (bs : List Byte) : ~~~(absorb Csu.clear bs).final = compute bs := by
  rw [absorb_clear_final, compute]

/-! ### Decoding and executing a command -/

/-- A command outside the TCP unit is selected by its word, with and without that unit (R74, R75). -/
theorem decode_tableWord {i : Instr} (h : i.usesTcp = false) (hasTcp : Bool) : decode hasTcp (tableWord i) = .ok i := by
  refine (decode_eq_ok_iff hasTcp _ i).2 ⟨(encode_eq_tableWord i).symm, ?_⟩
  rw [Instr.wellFormed, h, Bool.not_false, Bool.or_true]

/-- A command whose checks pass has its effect and completes, its assertion holding by closure (R107, R266). -/
theorem exec_succeeds {i : Instr} {s : State} (h : firstFailure (checksOf s i) = none) :
    exec i s = .next (effectOf s i).succeed := by
  rw [exec_eq, verifiedOf_eq_true, State.finalizing_succeeds _ _ _ ((firstFailure_none_iff _).1 h)]

/-- A command one of whose checks fails changes STATUS alone (R266, R269). -/
theorem failsWith_of_firstFailure {i : Instr} {s : State} {e : CmdError} (h : firstFailure (checksOf s i) = some e) :
    FailsWith i s e := by
  have he : e.halts = false :=
    CmdError.halts_eq_false fun heq => firstFailure_ne_consistencyViolation s i (heq ▸ h)
  have hstatus : s.status.afterError e = errStatus s e := by
    rw [Status.afterError, he, Bool.or_false, errStatus]
  rw [FailsWith, exec_eq, State.finalizing_raises _ _ _ _ e h, State.raise, hstatus, State.setStatus]

/-! ### The range of CK.ADD and CK.SUM (R57, R111, R113) -/

theorem sourceChecks_pass {s : State} (h : s.args.a1.toNat = 0 ∨ s.args.a0.toNat + s.args.a1.toNat ≤ s.params.pbufSize) :
    firstFailure (sourceChecks s) = none := by
  have hr : s.inRange s.args.srcAddr s.args.srcLen = true := (s.inRange_iff _ _).2 h
  rw [sourceChecks, hr, firstFailure_cons_true, firstFailure_nil]

theorem sourceChecks_fail {s : State} (hn : 0 < s.args.a1.toNat)
    (h : s.params.pbufSize < s.args.a0.toNat + s.args.a1.toNat) :
    firstFailure (sourceChecks s) = some .bufferRange := by
  have hr : s.inRange s.args.srcAddr s.args.srcLen = false := by
    rw [Bool.eq_false_iff, Ne, s.inRange_iff, Args.srcAddr, Args.srcLen]
    omega
  rw [sourceChecks, hr, firstFailure_cons_false]

/-- Clearing the accumulator leaves the bytes CK.ADD absorbs. -/
theorem sourceBytes_ckClr (s : State) : sourceBytes (effectOf s .ckClr).succeed = sourceBytes s :=
  s.memRead_of_mem_eq (effectOf s .ckClr).succeed rfl rfl _ _

/-- The effects of CK.CLR, CK.ADD and CK.GET in sequence are CK.SUM's (R113). -/
theorem effectOf_ckClr_ckAdd_ckGet (s : State) :
    (effectOf (effectOf (effectOf s .ckClr).succeed .ckAdd).succeed .ckGet).succeed = (effectOf s .ckSum).succeed := by
  have hadd : effectOf (effectOf s .ckClr).succeed .ckAdd =
      (effectOf s .ckClr).succeed.setCsu (absorb Csu.clear (sourceBytes s)) := by
    rw [← sourceBytes_ckClr]
    rfl
  have hsum : effectOf s .ckSum = (s.setCsu (absorb Csu.clear (sourceBytes s))).setRes
      (~~~(absorb Csu.clear (sourceBytes s)).final) := by
    rw [not_absorb_clear_final]
    rfl
  rw [hadd, hsum]
  rfl

end Sys2Proof.Machine

namespace Sys2Proof.Proofs

open Sys2Proof.Machine Sys2Proof.Claims

/-- Settles O37: fold and absorb take the stream two bytes at a time; absorbing in pieces is absorb_append. -/
theorem absorbingInPiecesIsFoldOfTheWhole : Obligations.AbsorbingInPiecesIsFoldOfTheWhole :=
  ⟨absorb_clear_final, fun c A B => (absorb_append c A B).symm⟩

/-- Settles O28: CK.CLR makes no check. -/
theorem ckClrClearsTheAccumulator : Obligations.CkClrClearsTheAccumulator :=
  fun s => ⟨decode_tableWord (i := .ckClr) rfl s.params.hasTcp, exec_succeeds (i := .ckClr) rfl⟩

/-- Settles O29: the range check passes or fails; absorbing after S is absorbing the longer stream. -/
theorem ckAddAbsorbsTheRange : Obligations.CkAddAbsorbsTheRange := by
  refine fun s => ⟨decode_tableWord (i := .ckAdd) rfl s.params.hasTcp, fun hr => ?_, fun hn hr => ?_⟩
  · refine ⟨_, exec_succeeds (i := .ckAdd) (sourceChecks_pass hr), rfl, fun S hS => ?_⟩
    rw [absorb_append, ← hS]
    rfl
  · exact failsWith_of_firstFailure (sourceChecks_fail hn hr)

/-- Settles O30: the padded sum of the absorbed stream is its fold. -/
theorem ckGetReadsTheChecksumAbsorbed : Obligations.CkGetReadsTheChecksumAbsorbed := by
  refine fun s => ⟨decode_tableWord (i := .ckGet) rfl s.params.hasTcp, _, exec_succeeds (i := .ckGet) rfl, rfl,
    fun S hS => ?_⟩
  rw [← not_absorb_clear_final, ← hS]
  rfl

/-- Settles O31: CK.CLR and CK.GET make no check, and CK.CLR writes nothing that CK.ADD's check reads; the read-out of the
bytes absorbed from clear is compute of them. -/
theorem ckSumGivesTheChecksumOfTheRange : Obligations.CkSumGivesTheChecksumOfTheRange := by
  refine fun s => ⟨decode_tableWord (i := .ckSum) rfl s.params.hasTcp, fun hr => ?inRange, fun hn hr => ?outOfRange,
    fun hr => ?sequence⟩
  case inRange =>
    exact ⟨_, exec_succeeds (i := .ckSum) (sourceChecks_pass hr), rfl, (not_absorb_clear_final (sourceBytes s)).symm⟩
  case outOfRange => exact failsWith_of_firstFailure (sourceChecks_fail hn hr)
  case sequence =>
    refine ⟨_, _, _, exec_succeeds (i := .ckClr) rfl, exec_succeeds (i := .ckAdd) (sourceChecks_pass hr),
      exec_succeeds (i := .ckGet) rfl, ?_⟩
    rw [exec_succeeds (i := .ckSum) (sourceChecks_pass hr), effectOf_ckClr_ckAdd_ckGet]

end Sys2Proof.Proofs
end

section
/-! PROOFS, family 41_codec. The five wire layouts (R130 to R133), and the fixed-size ENC and DEC commands, each family by the
one shape it shares (R136, R137). -/

namespace Sys2Proof.Machine

open Sys2Proof.Claims

/-! ### Packing what was read (R132) -/

theorem be16_halfAt (bs : List Byte) (i : Nat) : be16 (halfAt bs i) = [byteAt bs i, byteAt bs (i + 1)] := by
  rw [be16, halfAt, u16be_extract_high, u16be_extract_low]

theorem be32_wordAt (bs : List Byte) (i : Nat) :
    be32 (wordAt bs i) = [byteAt bs i, byteAt bs (i + 1), byteAt bs (i + 2), byteAt bs (i + 3)] := by
  obtain ⟨h0, h1, h2, h3⟩ := u32be_extract (byteAt bs i) (byteAt bs (i + 1)) (byteAt bs (i + 2)) (byteAt bs (i + 3))
  rw [be32, wordAt, h0, h1, h2, h3]

/-- A byte list is the list of its bytes. -/
theorem map_byteAt_range {bs : List Byte} {n : Nat} (h : bs.length = n) : (List.range n).map (byteAt bs) = bs := by
  subst h
  refine List.ext_getElem (by simp) fun i _ hi => ?_
  simp [byteAt, hi]

/-! ### decode of encode (R133): each field is read from where its bytes were put -/

theorem decodeIp_encodeIp (h : IpHeader) : decodeIp (encodeIp h) = h := by
  cases h
  simp only [decodeIp, IpHeader.mk.injEq]
  exact ⟨rfl, rfl, u16be_be16 _, u16be_be16 _, u16be_be16 _, rfl, rfl, u16be_be16 _, u32be_be32 _, u32be_be32 _⟩

theorem decodeIcmp_encodeIcmp (h : IcmpHeader) : decodeIcmp (encodeIcmp h) = h := by
  cases h
  simp only [decodeIcmp, IcmpHeader.mk.injEq]
  exact ⟨rfl, rfl, u16be_be16 _, u16be_be16 _, u16be_be16 _⟩

theorem decodeUdp_encodeUdp (h : UdpHeader) : decodeUdp (encodeUdp h) = h := by
  cases h
  simp only [decodeUdp, UdpHeader.mk.injEq]
  exact ⟨u16be_be16 _, u16be_be16 _, u16be_be16 _, u16be_be16 _⟩

theorem decodePsh_encodePsh (h : PshHeader) : decodePsh (encodePsh h) = h := by
  cases h
  simp only [decodePsh, PshHeader.mk.injEq]
  exact ⟨u32be_be32 _, u32be_be32 _, rfl, rfl, u16be_be16 _⟩

theorem decodeTcpHeader_encodeTcpHeader (h : TcpHeader) : decodeTcpHeader (encodeTcpHeader h) = h := by
  cases h
  simp only [decodeTcpHeader, TcpHeader.mk.injEq]
  exact ⟨u16be_be16 _, u16be_be16 _, u32be_be32 _, u32be_be32 _, rfl, rfl, u16be_be16 _, u16be_be16 _, u16be_be16 _⟩

/-! ### encode of decode (R133): the fields are the list's bytes in order -/

theorem encodeIp_decodeIp {bs : List Byte} (h : bs.length = 20) : encodeIp (decodeIp bs) = bs := by
  refine Eq.trans ?_ (map_byteAt_range h)
  simp only [encodeIp, decodeIp, be16_halfAt, be32_wordAt]
  rfl

theorem encodeIcmp_decodeIcmp {bs : List Byte} (h : bs.length = 8) : encodeIcmp (decodeIcmp bs) = bs := by
  refine Eq.trans ?_ (map_byteAt_range h)
  simp only [encodeIcmp, decodeIcmp, be16_halfAt]
  rfl

theorem encodeUdp_decodeUdp {bs : List Byte} (h : bs.length = 8) : encodeUdp (decodeUdp bs) = bs := by
  refine Eq.trans ?_ (map_byteAt_range h)
  simp only [encodeUdp, decodeUdp, be16_halfAt]
  rfl

theorem encodePsh_decodePsh {bs : List Byte} (h : bs.length = 12) : encodePsh (decodePsh bs) = bs := by
  refine Eq.trans ?_ (map_byteAt_range h)
  simp only [encodePsh, decodePsh, be16_halfAt, be32_wordAt]
  rfl

theorem encodeTcpHeader_decodeTcpHeader {bs : List Byte} (h : bs.length = 20) :
    encodeTcpHeader (decodeTcpHeader bs) = bs := by
  refine Eq.trans ?_ (map_byteAt_range h)
  simp only [encodeTcpHeader, decodeTcpHeader, be16_halfAt, be32_wordAt]
  rfl

/-! ### The range of n bytes at an address (R57) -/

theorem State.inRange_of_le {s : State} {a n : Nat} (h : a + n ≤ s.params.pbufSize) : s.inRange a n = true :=
  (s.inRange_iff a n).2 (Or.inr h)

theorem State.inRange_eq_false {s : State} {a n : Nat} (hn : 0 < n) (h : s.params.pbufSize < a + n) :
    s.inRange a n = false := by
  rw [Bool.eq_false_iff, Ne, s.inRange_iff]
  omega

/-! ### ENC of a fixed-size type (R136) -/

@[simp] theorem State.memRead_succeed (s : State) (a n : Nat) : s.succeed.memRead a n = s.memRead a n :=
  s.memRead_of_mem_eq s.succeed rfl rfl a n

/-- A command outside the TCP unit that checks the range of n bytes at a0 and stores its n bytes there has the shape of
ENC. -/
theorem encShape_of_stores {i : Instr} {bs : State → List Byte} {n : Nat} (hi : i.usesTcp = false)
    (hc : ∀ s, checksOf s i = [(s.inRange s.args.a0.toNat n, .bufferRange)])
    (hw : ∀ s, storesOf s i = some (s.args.a0.toNat, bs s)) (hlen : ∀ s, (bs s).length = n)
    (hpos : 0 < n) (hlt : n < 2 ^ 32) : EncShape i bs n := by
  refine fun s => ⟨decode_tableWord hi s.params.hasTcp, fun hr => ?inRange, fun hr => ?outOfRange⟩
  case inRange =>
    have hpass : firstFailure (checksOf s i) = none := by
      rw [hc, State.inRange_of_le hr, firstFailure_cons_true, firstFailure_nil]
    have hexec : exec i s = .next (s.emit s.args.a0.toNat (bs s)).succeed := by
      rw [exec_succeeds hpass, effectOf_eq_emit (hw s)]
    refine ⟨_, hexec, ?_, ?_, rfl, exec_sameBytesOutside hexec (hw s) fun _ => hlen s, rfl⟩
    · rw [State.memRead_succeed, ← hlen s, State.memRead_emit]
    · rw [State.succeed_olen, State.emit_olen, hlen, olenWord_toNat n hlt]
  case outOfRange =>
    refine failsWith_of_firstFailure ?_
    rw [hc, State.inRange_eq_false hpos hr, firstFailure_cons_false]

/-! ### DEC of a fixed-size type (R137) -/

theorem decChecks_pass {s : State} {n : Nat} (hl : s.args.a1.toNat = n)
    (hr : s.args.a0.toNat + n ≤ s.params.pbufSize) : firstFailure (decChecks s n) = none := by
  have hlen : (s.args.srcLen == n) = true := beq_iff_eq.2 hl
  have hrange : s.inRange s.args.srcAddr n = true := State.inRange_of_le hr
  rw [decChecks, hlen, hrange, firstFailure_cons_true, firstFailure_cons_true, firstFailure_nil]

theorem decChecks_length {s : State} {n : Nat} (hl : s.args.a1.toNat ≠ n) :
    firstFailure (decChecks s n) = some .lengthMismatch := by
  have hlen : (s.args.srcLen == n) = false := beq_eq_false_iff_ne.2 hl
  rw [decChecks, hlen, firstFailure_cons_false]

theorem decChecks_range {s : State} {n : Nat} (hn : 0 < n) (hl : s.args.a1.toNat = n)
    (hr : s.params.pbufSize < s.args.a0.toNat + n) : firstFailure (decChecks s n) = some .bufferRange := by
  have hlen : (s.args.srcLen == n) = true := beq_iff_eq.2 hl
  have hrange : s.inRange s.args.srcAddr n = false := State.inRange_eq_false hn hr
  rw [decChecks, hlen, hrange, firstFailure_cons_true, firstFailure_cons_false]

/-- A command outside the TCP unit that makes DEC's checks has the shape of DEC, result being its effect on the bytes at
a0. -/
theorem decShape_of_effect {i : Instr} {n : Nat} {result : State → List Byte → State} (hi : i.usesTcp = false)
    (hn : 0 < n) (hc : ∀ s, checksOf s i = decChecks s n)
    (he : ∀ s, (effectOf s i).succeed = { result s (s.memRead s.args.a0.toNat n) with status := okStatus s }) :
    DecShape i n result := by
  refine fun s => ⟨decode_tableWord hi s.params.hasTcp, fun hl hr => ?completes, fun hl => ?length, fun hl hr => ?range⟩
  case completes => rw [exec_succeeds ((hc s).symm ▸ decChecks_pass hl hr), he]
  case length => exact failsWith_of_firstFailure ((hc s).symm ▸ decChecks_length hl)
  case range => exact failsWith_of_firstFailure ((hc s).symm ▸ decChecks_range hn hl hr)

end Sys2Proof.Machine

namespace Sys2Proof.Proofs

open Sys2Proof.Machine Sys2Proof.Claims

/-- Settles O38: field by field in one direction, byte by byte in the other. -/
theorem headerCodecIsABijection : Obligations.HeaderCodecIsABijection :=
  ⟨decodeIp_encodeIp, fun _ => encodeIp_decodeIp, decodeIcmp_encodeIcmp, fun _ => encodeIcmp_decodeIcmp,
    decodeUdp_encodeUdp, fun _ => encodeUdp_decodeUdp, decodePsh_encodePsh, fun _ => encodePsh_decodePsh,
    decodeTcpHeader_encodeTcpHeader, fun _ => encodeTcpHeader_decodeTcpHeader⟩

/-- Settles O39: the four ENC commands check and store as R136 says. -/
theorem encWritesTheBanksEncoding : Obligations.EncWritesTheBanksEncoding :=
  ⟨encShape_of_stores rfl (fun _ => rfl) (fun _ => rfl) (fun s => encodeIp_length s.ip) (by decide) (by decide),
    encShape_of_stores rfl (fun _ => rfl) (fun _ => rfl) (fun s => encodeIcmp_length s.icmp) (by decide) (by decide),
    encShape_of_stores rfl (fun _ => rfl) (fun _ => rfl) (fun s => encodeUdp_length s.udp) (by decide) (by decide),
    encShape_of_stores rfl (fun _ => rfl) (fun _ => rfl) (fun s => encodePsh_length s.psh) (by decide) (by decide)⟩

/-- Settles O40: the four DEC commands make the checks of R137 and write one bank. -/
theorem decReadsTheBank : Obligations.DecReadsTheBank :=
  ⟨decShape_of_effect rfl (by decide) (fun _ => rfl) fun _ => rfl,
    decShape_of_effect rfl (by decide) (fun _ => rfl) fun _ => rfl,
    decShape_of_effect rfl (by decide) (fun _ => rfl) fun _ => rfl,
    decShape_of_effect rfl (by decide) (fun _ => rfl) fun _ => rfl⟩

end Sys2Proof.Proofs
end

section
/-! PROOFS, family 42_ipv4. Finalizing a header in place (R106, R152, R172) and building the IPv4 header (R153, R154). -/

namespace Sys2Proof.Machine

open Sys2Proof.Claims

/-! ### Finalizing again (R106) -/

/-- The old checksum is irrelevant (R152). -/
@[simp] theorem finalizeIp_finalizeIp (h : IpHeader) : finalizeIp (finalizeIp h) = finalizeIp h := rfl

/-- The old checksum is irrelevant (R172). -/
@[simp] theorem finalizeIcmp_finalizeIcmp (h : IcmpHeader) : finalizeIcmp (finalizeIcmp h) = finalizeIcmp h := rfl

@[simp] theorem State.succeed_succeed (s : State) : s.succeed.succeed = s.succeed := rfl

/-- A command that makes no check and whose effect is nothing in the state it has completed in changes nothing there. -/
theorem exec_again {i : Instr} {s : State} (hc : ∀ t, checksOf t i = [])
    (he : effectOf (effectOf s i).succeed i = (effectOf s i).succeed) :
    exec i (effectOf s i).succeed = .next (effectOf s i).succeed := by
  rw [exec_succeeds (by rw [hc, firstFailure_nil]), he, State.succeed_succeed]

/-! ### The narrow operands as numbers (R77) -/

theorem lowHalf_toNat (w : Word) : (lowHalf w).toNat = w.toNat % 2 ^ 16 := by
  rw [lowHalf, BitVec.extractLsb'_toNat, Nat.shiftRight_zero]

theorem lowByte_toNat (w : Word) : (lowByte w).toNat = w.toNat % 2 ^ 8 := by
  rw [lowByte, BitVec.extractLsb'_toNat, Nat.shiftRight_zero]

/-! ### The length check of BLD.IP and the header it builds (R153, R154) -/

theorem ipLengthFits_iff (n : Half) : ipLengthFits n = true ↔ 20 + n.toNat ≤ 0xFFFF := decide_eq_true_iff

theorem bldIpChecks_pass {s : State} (h : 20 + s.args.a0.toNat % 2 ^ 16 ≤ 0xFFFF) :
    firstFailure (checksOf s .bldIp) = none := by
  rw [← lowHalf_toNat, ← ipLengthFits_iff] at h
  rw [checksOf, Args.ipPayloadLen, h, firstFailure_cons_true, firstFailure_nil]

theorem bldIpChecks_fail {s : State} (h : 0xFFFF < 20 + s.args.a0.toNat % 2 ^ 16) :
    firstFailure (checksOf s .bldIp) = some .lengthOverflow := by
  rw [← lowHalf_toNat, ← Nat.not_le, ← ipLengthFits_iff, Bool.not_eq_true] at h
  rw [checksOf, Args.ipPayloadLen, h, firstFailure_cons_false]

/-- Where the sum fits, total_length is the sum, not a wrapped one (R154). -/
theorem buildIp_tlen_toNat (p : Params) {n : Half} (proto : Byte) (dst : Word) (h : 20 + n.toNat ≤ 0xFFFF) :
    (buildIp p n proto dst).tlen.toNat = 20 + n.toNat :=
  (BitVec.toNat_ofNat _ _).trans (Nat.mod_eq_of_lt (Nat.lt_succ_of_le h))

/-- What build stores is the checksum of the header it built, with the field zero (R106). -/
theorem buildIp_csum (p : Params) (n : Half) (proto : Byte) (dst : Word) :
    (buildIp p n proto dst).csum = compute (encodeIp { buildIp p n proto dst with csum := 0x0000#16 }) := rfl

end Sys2Proof.Machine

namespace Sys2Proof.Proofs

open Sys2Proof.Machine Sys2Proof.Claims

/-- Settles O42: FIN makes no check, its result verifies by closure, and finalizing a finalized header gives it back. -/
theorem finStoresAChecksumThatVerifies : Obligations.FinStoresAChecksumThatVerifies := by
  refine fun s => ⟨⟨decode_tableWord (i := .finIp) rfl s.params.hasTcp, ?ip⟩,
    decode_tableWord (i := .finIcmp) rfl s.params.hasTcp, ?icmp⟩
  case ip =>
    exact ⟨_, exec_succeeds (i := .finIp) rfl, rfl, compute_finalizeIp s.ip,
      exec_again (fun _ => rfl) (congrArg (State.setIp _) (finalizeIp_finalizeIp s.ip))⟩
  case icmp =>
    exact ⟨_, exec_succeeds (i := .finIcmp) rfl, rfl, compute_finalizeIcmp s.icmp,
      exec_again (fun _ => rfl) (congrArg (State.setIcmp _) (finalizeIcmp_finalizeIcmp s.icmp))⟩

/-- Settles O43: the length check passes or fails by the number a0's low half is; the header built is a finalized one. -/
theorem bldIpBuildsTheHeader : Obligations.BldIpBuildsTheHeader := by
  refine fun s => ⟨decode_tableWord (i := .bldIp) rfl s.params.hasTcp, fun hfits => ?fits, fun hover => ?overflows⟩
  case fits =>
    have hlen : (bldIpHeader s).tlen.toNat = 20 + s.args.a0.toNat % 2 ^ 16 := by
      rw [← lowHalf_toNat] at hfits ⊢
      exact buildIp_tlen_toNat _ _ _ hfits
    exact ⟨_, exec_succeeds (bldIpChecks_pass hfits), rfl, rfl, rfl, hlen, rfl, rfl, rfl, lowByte_toNat s.args.a1, rfl,
      rfl, buildIp_csum _ _ _ _, compute_finalizeIp _⟩
  case overflows => exact failsWith_of_firstFailure (bldIpChecks_fail hover)

end Sys2Proof.Proofs
end

section
/-! PROOFS, family 43_icmp. DEC after ENC of a fixed-size type (R174), and the echo request BLD.ICMP builds (R173). -/

namespace Sys2Proof.Machine

open Sys2Proof.Claims

/-! ### DEC after ENC (R174, R136, R137) -/

/-- What ENC leaves for a DEC at the same address: the encoding there, and the same address and buffer. -/
theorem memRead_after_enc {enc : Instr} {bs : State → List Byte} {n : Nat} (henc : EncShape enc bs n) {s t : State}
    (hr : s.args.a0.toNat + n ≤ s.params.pbufSize) (h : exec enc s = .next t) :
    t.memRead t.args.a0.toNat n = bs s ∧ t.args.a0.toNat + n ≤ t.params.pbufSize := by
  obtain ⟨-, hin, -⟩ := henc s
  obtain ⟨t', ht', hread, -⟩ := hin hr
  cases h.symm.trans ht'
  obtain ⟨hargs, -, -, hparams, -⟩ := exec_keeps h
  rw [hargs, hparams]
  exact ⟨hread, hr⟩

/-- DEC of the type's length, from a state with the address, the bytes and the parameters ENC left, decodes what ENC wrote;
the rest of that state is free. -/
theorem dec_after_enc {enc dec : Instr} {bs : State → List Byte} {n : Nat} {result : State → List Byte → State}
    (henc : EncShape enc bs n) (hdec : DecShape dec n result) {s t u : State}
    (hr : s.args.a0.toNat + n ≤ s.params.pbufSize) (h : exec enc s = .next t) (hmem : u.mem = t.mem)
    (hepoch : u.epoch = t.epoch) (hparams : u.params = t.params) (haddr : u.args.a0 = t.args.a0)
    (hlen : u.args.a1.toNat = n) : exec dec u = .next { result u (bs s) with status := okStatus u } := by
  obtain ⟨hread, hrange⟩ := memRead_after_enc henc hr h
  obtain ⟨-, hcompletes, -⟩ := hdec u
  have hbytes : u.memRead u.args.a0.toNat n = bs s := by
    rw [haddr, State.memRead_of_mem_eq t u hmem hepoch, hread]
  rw [← haddr, ← hparams] at hrange
  rw [hcompletes hlen hrange, hbytes]

end Sys2Proof.Machine

namespace Sys2Proof.Proofs

open Sys2Proof.Machine Sys2Proof.Claims

/-- Settles O41: DEC reads the bytes ENC wrote (O39, O40), and decoding an encoding gives the header back (O38). -/
theorem decAfterEncRestoresTheBank : Obligations.DecAfterEncRestoresTheBank := by
  obtain ⟨hencIp, hencIcmp, -⟩ := encWritesTheBanksEncoding
  obtain ⟨hdecIp, hdecIcmp, -⟩ := decReadsTheBank
  refine fun s t ip icmp => ⟨fun hr h => ?ip, fun hr h => ?icmp⟩
  case ip => exact ⟨_, dec_after_enc hencIp hdecIp hr h rfl rfl rfl rfl rfl, decodeIp_encodeIp s.ip⟩
  case icmp => exact ⟨_, dec_after_enc hencIcmp hdecIcmp hr h rfl rfl rfl rfl rfl, decodeIcmp_encodeIcmp s.icmp⟩

/-- Settles O44: BLD.ICMP makes no check; SEQ is a0's low half, and the header built is a finalized one, so it verifies. -/
theorem bldIcmpBuildsAnEchoRequest : Obligations.BldIcmpBuildsAnEchoRequest :=
  fun s => ⟨decode_tableWord (i := .bldIcmp) rfl s.params.hasTcp, _, exec_succeeds (i := .bldIcmp) rfl, rfl, rfl, rfl, rfl,
    lowHalf_toNat s.args.a0, rfl, compute_finalizeIcmp _⟩

end Sys2Proof.Proofs
end

section
/-! PROOFS, family 44_udp. The pseudo-header BLD.PSH makes (R194), and the packet of UDP.PKT: its checks in order (R196, R269),
its fields (R196, R197, R199), and its two regions, each of which verifies (R198). -/

namespace Sys2Proof.Machine

open Sys2Proof.Claims

/-! ### The two ports in one argument (R77) -/

theorem portsSource_toNat (w : Word) : (portsSource w).toNat = w.toNat / 2 ^ 16 := by
  have hw := w.isLt
  rw [portsSource, BitVec.extractLsb'_toNat, Nat.shiftRight_eq_div_pow]
  omega

theorem portsDest_toNat (w : Word) : (portsDest w).toNat = w.toNat % 2 ^ 16 := lowHalf_toNat w

/-! ### The checks of UDP.PKT in order (R196, R269) -/

/-- The payload and the output range are inside PBUF; an empty payload may stand anywhere (R57). -/
abbrev PktRangesFit (s : State) : Prop :=
  (s.args.a1.toNat = 0 ∨ s.args.a0.toNat + s.args.a1.toNat ≤ s.params.pbufSize) ∧
    s.args.a4.toNat + 28 + s.args.a1.toNat ≤ s.params.pbufSize

theorem pktRangesFit_iff (s : State) : PktRangesFit s ↔
    s.inRange s.args.pktPayloadAddr s.args.pktPayloadLen = true ∧ s.inRange s.args.pktOut (pktLen s) = true := by
  rw [State.inRange_iff, State.inRange_iff, pktLen_eq, Args.pktPayloadAddr, Args.pktPayloadLen, Args.pktOut]
  omega

theorem pktChecks_overflow {s : State} (hn : 65507 < s.args.a1.toNat) :
    firstFailure (checksOf s .udpPkt) = some .lengthOverflow := by
  have hlen : decide (s.args.pktPayloadLen ≤ Config.maxUdpPayload) = false := decide_eq_false (Nat.not_le.2 hn)
  rw [checksOf, pktChecks, hlen, firstFailure_cons_false]

/-- With a payload that is not too long the ranges decide: the last check passes by closure (R107). -/
theorem pktChecks_ranges {s : State} (hn : s.args.a1.toNat ≤ 65507) :
    firstFailure (checksOf s .udpPkt) = if PktRangesFit s then none else some .bufferRange := by
  have hlen : decide (s.args.pktPayloadLen ≤ Config.maxUdpPayload) = true := decide_eq_true hn
  have hverifies : verifies (encodeIp (pktIp s)) = true := verifies_finalizeIp _
  rw [checksOf, pktChecks, hlen, hverifies, firstFailure_cons_true]
  simp only [pktRangesFit_iff]
  cases s.inRange s.args.pktPayloadAddr s.args.pktPayloadLen with
  | false => rfl
  | true => cases s.inRange s.args.pktOut (pktLen s) <;> rfl

theorem pktChecks_pass {s : State} (hn : s.args.a1.toNat ≤ 65507) (hfit : PktRangesFit s) :
    firstFailure (checksOf s .udpPkt) = none := (pktChecks_ranges hn).trans (if_pos hfit)

theorem pktChecks_outOfRange {s : State} (hn : s.args.a1.toNat ≤ 65507) (hout : ¬ PktRangesFit s) :
    firstFailure (checksOf s .udpPkt) = some .bufferRange := (pktChecks_ranges hn).trans (if_neg hout)

/-! ### The lengths in the packet (R197) -/

theorem pktUdpLen_toNat {s : State} (hn : s.args.a1.toNat ≤ 65507) : (pktUdpLen s).toNat = 8 + s.args.a1.toNat :=
  (BitVec.toNat_ofNat _ _).trans (Nat.mod_eq_of_lt (show 8 + s.args.a1.toNat < 2 ^ 16 by omega))

theorem pktIp_tlen_toNat {s : State} (hn : s.args.a1.toNat ≤ 65507) : (pktIp s).tlen.toNat = 28 + s.args.a1.toNat := by
  have hlen := pktUdpLen_toNat hn
  rw [pktIp, buildIp_tlen_toNat _ _ _ (by omega)]
  omega

theorem pktBytes_length_eq (s : State) : (pktBytes s).length = 28 + s.args.a1.toNat := pktBytes_length s

/-! ### The UDP checksum (R196, R199) -/

/-- What the packet holds is the checksum over the pseudo-header of its own IPv4 header, the UDP header with the field zero, and
the payload. -/
theorem pktUdp_csum (s : State) : (pktUdp s).csum = compute
    (encodePsh (pseudoOf (pktIp s) (pktUdp s).len) ++ encodeUdp { pktUdp s with csum := 0x0000#16 } ++ pktPayload s) := rfl

/-! ### The packet in PBUF after UDP.PKT -/

/-- A completed store writes PBUF, OLEN and STATUS.ERR only (R41). -/
theorem State.succeed_emit_eq (s : State) (a : Nat) (bs : List Byte) : (s.emit a bs).succeed =
    { s with mem := (s.emit a bs).succeed.mem, olen := (s.emit a bs).succeed.olen, status := okStatus s } := rfl

/-- The payload is read before the write, so the packet stands at a4 whole even where the ranges overlap (R58). -/
theorem memRead_after_udpPkt (s : State) :
    (effectOf s .udpPkt).succeed.memRead s.args.a4.toNat (28 + s.args.a1.toNat) = pktBytes s := by
  rw [State.memRead_succeed, ← pktBytes_length_eq]
  exact s.memRead_emit s.args.a4.toNat (pktBytes s)

theorem pktBytes_eq (s : State) : pktBytes s = encodeIp (pktIp s) ++ (encodeUdp (pktUdp s) ++ pktPayload s) :=
  List.append_assoc _ _ _

/-- The packet's first region is its IPv4 header. -/
theorem pktBytes_take (s : State) : (pktBytes s).take 20 = encodeIp (pktIp s) := by
  rw [pktBytes_eq, List.take_left' (encodeIp_length _)]

/-- Its second region is the UDP header and the payload. -/
theorem pktBytes_drop (s : State) : (pktBytes s).drop 20 = encodeUdp (pktUdp s) ++ pktPayload s := by
  rw [pktBytes_eq, List.drop_left' (encodeIp_length _)]

/-! ### The two regions (R198) -/

theorem compute_pktIp (s : State) : compute (encodeIp (pktIp s)) = 0x0000#16 := compute_finalizeIp _

/-- The UDP checksum is over the pseudo-header too, which the packet does not hold. -/
theorem compute_pktUdp (s : State) :
    compute (encodePsh (pseudoOf (pktIp s) (pktUdp s).len) ++ (encodeUdp (pktUdp s) ++ pktPayload s)) = 0x0000#16 := by
  rw [← List.append_assoc]
  exact compute_udp_finalized (pseudoOf (pktIp s) (pktUdpLen s)) (pktUdp0 s) (pktPayload s)

/-- A state to build an empty packet in, from 192.0.2.2 to 192.0.2.1, ports 12345 and 53. -/
def emptyPktState : State :=
  { State.reset with
    params := { State.reset.params with localAddr := 0xC0000202#32 }
    args := { Args.resetValue with a2 := 0xC0000201#32, a3 := 0x30390035#32 } }

/-- The checksum of a whole packet misses the pseudo-header (R198). -/
theorem compute_pktBytes_emptyPktState : compute (pktBytes emptyPktState) ≠ 0x0000#16 := by decide

end Sys2Proof.Machine

namespace Sys2Proof.Proofs

open Sys2Proof.Machine Sys2Proof.Claims

/-- Settles O46: the checks decide between the three outcomes; in the first the packet's bytes stand at a4, and its headers are
those of R196. -/
theorem udpPktWritesThePacket : Obligations.UdpPktWritesThePacket := by
  refine fun s => ⟨decode_tableWord (i := .udpPkt) rfl s.params.hasTcp, fun hn hin hout => ?completes, fun hn => ?overflow,
    fun hn hpos hin => ?payloadRange, fun hn hout => ?outputRange⟩
  case completes =>
    have hexec : exec .udpPkt s = .next (s.emit s.args.a4.toNat (pktBytes s)).succeed :=
      exec_succeeds (pktChecks_pass hn ⟨hin, hout⟩)
    have holen : (olenWord (pktBytes s).length).toNat = 28 + s.args.a1.toNat := by
      rw [pktBytes_length_eq, olenWord_toNat _ (by omega)]
    exact ⟨_, pktIp s, pktUdp s, hexec, memRead_after_udpPkt s, rfl, rfl, pktIp_tlen_toNat hn, rfl, rfl, rfl, rfl, rfl, rfl,
      buildIp_csum _ _ _ _, portsSource_toNat s.args.a3, portsDest_toNat s.args.a3, pktUdpLen_toNat hn, pktUdp_csum s, holen,
      exec_sameBytesOutside hexec rfl fun _ => pktBytes_length_eq s, s.succeed_emit_eq _ _⟩
  case overflow => exact failsWith_of_firstFailure (pktChecks_overflow hn)
  case payloadRange =>
    exact failsWith_of_firstFailure (pktChecks_outOfRange hn fun ⟨hpayload, _⟩ => by omega)
  case outputRange =>
    exact failsWith_of_firstFailure (pktChecks_outOfRange hn fun ⟨_, houtput⟩ => by omega)

/-- Settles O47: decoding the packet's own headers gives back those the checksums were computed with (O38). -/
theorem udpPacketVerifiesRegionByRegion : Obligations.UdpPacketVerifiesRegionByRegion := by
  refine ⟨fun s t h he => ?regions, ?whole⟩
  case regions =>
    obtain ⟨-, rfl⟩ := exec_of_err_none h he
    rw [memRead_after_udpPkt, pktBytes_take, pktBytes_drop, List.take_left' (encodeUdp_length _), decodeIp_encodeIp,
      decodeUdp_encodeUdp]
    exact ⟨compute_pktIp s, compute_pktUdp s⟩
  case whole =>
    refine ⟨emptyPktState, _, exec_succeeds (i := .udpPkt) (pktChecks_pass (by decide) ⟨by decide, by decide⟩), rfl, ?_⟩
    rw [memRead_after_udpPkt]
    exact compute_pktBytes_emptyPktState

/-- Settles O45: BLD.PSH makes no check; LEN is a0's low half. -/
theorem bldPshCopiesTheAddressesOfBankIp : Obligations.BldPshCopiesTheAddressesOfBankIp :=
  fun s => ⟨decode_tableWord (i := .bldPsh) rfl s.params.hasTcp, _, exec_succeeds (i := .bldPsh) rfl, rfl, rfl, rfl, rfl,
    rfl, lowHalf_toNat s.args.a0⟩

end Sys2Proof.Proofs
end

section
/-! PROOFS, family 45_tcp. ENC.TCP: its checks in order and the packet it leaves in PBUF (R221, R222). DEC.TCP: its checks and
the bank of a parse (R223, R224), whose packet is the bytes parsed. BLD.TCP: the option and the offset byte (R225 to R227). -/

namespace Sys2Proof.Machine

open Sys2Proof.Claims

/-- With the TCP unit every command is selected by its word (R74, R75). -/
theorem decode_true_tableWord (i : Instr) : decode true (tableWord i) = .ok i :=
  (decode_eq_ok_iff true _ i).2 ⟨(encode_eq_tableWord i).symm, rfl⟩

/-! ### The checks of ENC.TCP in order (R222, R269) -/

theorem tcpFormatOk_iff_tcpBankOk (t : TcpBank) : tcpFormatOk t = true ↔ TcpBankOk t := by
  rw [tcpFormatOk_iff, dataOffset_eq, Nat.mul_comm, TcpBankOk]

/-- The payload and the output range are inside PBUF; an empty payload may stand anywhere (R57). -/
abbrev TcpRangesFit (s : State) : Prop :=
  (s.tcp.dlen.toNat = 0 ∨ s.tcp.daddr.toNat + s.tcp.dlen.toNat ≤ s.params.pbufSize) ∧
    s.args.a0.toNat + (20 + s.tcp.optLen.toNat + s.tcp.dlen.toNat) ≤ s.params.pbufSize

theorem tcpRangesFit_iff (s : State) : TcpRangesFit s ↔
    s.inRange s.tcp.daddr.toNat s.tcp.dlen.toNat = true ∧ s.inRange s.args.dstAddr (encTcpLen s.tcp) = true := by
  rw [State.inRange_iff, State.inRange_iff, encTcpLen_eq, Args.dstAddr]
  omega

theorem encTcpChecks_format {s : State} (h : ¬ TcpBankOk s.tcp) :
    firstFailure (checksOf s .encTcp) = some .tcpFormat := by
  rw [← tcpFormatOk_iff_tcpBankOk, Bool.not_eq_true] at h
  rw [checksOf, encTcpChecks, h, firstFailure_cons_false]

/-- With a bank in format the two ranges decide. -/
theorem encTcpChecks_ranges {s : State} (h : TcpBankOk s.tcp) :
    firstFailure (checksOf s .encTcp) = if TcpRangesFit s then none else some .bufferRange := by
  rw [checksOf, encTcpChecks, (tcpFormatOk_iff_tcpBankOk s.tcp).2 h, firstFailure_cons_true]
  simp only [tcpRangesFit_iff]
  cases s.inRange s.tcp.daddr.toNat s.tcp.dlen.toNat with
  | false => rfl
  | true => cases s.inRange s.args.dstAddr (encTcpLen s.tcp) <;> rfl

theorem encTcpChecks_pass {s : State} (h : TcpBankOk s.tcp) (hfit : TcpRangesFit s) :
    firstFailure (checksOf s .encTcp) = none := (encTcpChecks_ranges h).trans (if_pos hfit)

theorem encTcpChecks_outOfRange {s : State} (h : TcpBankOk s.tcp) (hout : ¬ TcpRangesFit s) :
    firstFailure (checksOf s .encTcp) = some .bufferRange := (encTcpChecks_ranges h).trans (if_neg hout)

/-! ### The packet in PBUF after ENC.TCP -/

theorem encTcpBytes_length_of_bankOk {s : State} (h : TcpBankOk s.tcp) :
    (encTcpBytes s).length = 20 + s.tcp.optLen.toNat + s.tcp.dlen.toNat := by
  obtain ⟨hmax, -⟩ := h
  exact encTcpBytes_length s hmax

/-- The payload is read before the write, so the packet stands at a0 whole even where the ranges overlap (R58). -/
theorem memRead_after_encTcp {s : State} (h : TcpBankOk s.tcp) :
    (effectOf s .encTcp).succeed.memRead s.args.a0.toNat (20 + s.tcp.optLen.toNat + s.tcp.dlen.toNat) =
      encTcpBytes s := by
  rw [State.memRead_succeed, ← encTcpBytes_length_of_bankOk h]
  exact s.memRead_emit s.args.a0.toNat (encTcpBytes s)

/-! ### Parts of a range read from PBUF (R15) -/

theorem State.memRead_take (s : State) (a : Nat) {m n : Nat} (h : m ≤ n) : (s.memRead a n).take m = s.memRead a m := by
  obtain ⟨k, rfl⟩ := Nat.exists_eq_add_of_le h
  rw [State.memRead_append, List.take_left' (s.memRead_length a m)]

theorem State.memRead_drop (s : State) (a : Nat) {m n : Nat} (h : m ≤ n) :
    (s.memRead a n).drop m = s.memRead (a + m) (n - m) := by
  obtain ⟨k, rfl⟩ := Nat.exists_eq_add_of_le h
  rw [State.memRead_append, List.drop_left' (s.memRead_length a m), Nat.add_sub_cancel_left]

theorem byteAt_memRead (s : State) (a n i : Nat) :
    byteAt (s.memRead a n) i = if i < n then s.pbufByte (a + i) else 0x00#8 := by
  rw [byteAt, List.getD_eq_getElem?_getD]
  split
  · rw [s.memRead_getElem? a n i ‹_›, Option.getD_some]
  · rw [List.getElem?_eq_none (by rw [State.memRead_length]; omega), Option.getD_none]

/-- The option store begins with the bytes it was made of. -/
theorem optStore_toList_take {bs : List Byte} (h : bs.length ≤ 40) : (optStore bs).toList.take bs.length = bs := by
  refine List.ext_getElem (by simp [h]) fun i _ hi => ?_
  rw [List.getElem_take, Vector.getElem_toList, optStore_getElem bs i (by omega)]
  simp [byteAt, hi]

/-! ### What DEC.TCP parses (R223) -/

theorem decTcpHeader_eq {s : State} (h : 20 ≤ s.args.a1.toNat) :
    decTcpHeader s = decodeTcpHeader (s.memRead s.args.a0.toNat 20) :=
  congrArg decodeTcpHeader (s.memRead_take _ h)

theorem decTcpOff_eq_tcpOffAt {s : State} (h : 20 ≤ s.args.a1.toNat) : decTcpOff s = tcpOffAt s := by
  have hbyte : (decTcpHeader s).off = s.pbufByte (s.args.a0.toNat + 12) := by
    rw [decTcpHeader_eq h]
    exact byteAt_memRead s _ 20 12
  rw [decTcpOff, dataOffset_eq, hbyte, tcpOffAt]

/-- The offset is at most the 60 bytes a nibble of words counts (R224). -/
theorem tcpOffAt_le (s : State) : tcpOffAt s ≤ 60 := by
  have hbyte := (s.pbufByte (s.args.a0.toNat + 12)).isLt
  rw [tcpOffAt]
  omega

/-- The options are the bytes between the fixed header and the data offset. -/
theorem decTcpBytes_options {s : State} (hoff : 20 ≤ tcpOffAt s) (hlen : tcpOffAt s ≤ s.args.a1.toNat) :
    ((decTcpBytes s).take (tcpOffAt s)).drop 20 = s.memRead (s.args.a0.toNat + 20) (tcpOffAt s - 20) := by
  rw [decTcpBytes, Args.srcAddr, Args.srcLen, State.memRead_take s _ hlen, State.memRead_drop s _ hoff]

/-! ### The checks of DEC.TCP in order (R224, R269) -/

theorem decTcpChecks_length {s : State} (h : s.args.a1.toNat < 20) :
    firstFailure (checksOf s .decTcp) = some .lengthMismatch := by
  have hlen : decide (Config.tcpHlen ≤ s.args.srcLen) = false := decide_eq_false (Nat.not_le.2 h)
  rw [checksOf, decTcpChecks, hlen, firstFailure_cons_false]

theorem decTcpChecks_range {s : State} (h : 20 ≤ s.args.a1.toNat)
    (hr : s.params.pbufSize < s.args.a0.toNat + s.args.a1.toNat) :
    firstFailure (checksOf s .decTcp) = some .bufferRange := by
  have hlen : decide (Config.tcpHlen ≤ s.args.srcLen) = true := decide_eq_true h
  have hpos : 0 < s.args.a1.toNat := by omega
  have hrange : s.inRange s.args.srcAddr s.args.srcLen = false := State.inRange_eq_false hpos hr
  rw [checksOf, decTcpChecks, hlen, hrange, firstFailure_cons_true, firstFailure_cons_false]

/-- With 20 bytes or more inside the buffer the data offset decides. -/
theorem decTcpChecks_format {s : State} (h : 20 ≤ s.args.a1.toNat)
    (hr : s.args.a0.toNat + s.args.a1.toNat ≤ s.params.pbufSize) :
    firstFailure (checksOf s .decTcp) =
      if 20 ≤ tcpOffAt s ∧ tcpOffAt s ≤ s.args.a1.toNat then none else some .tcpFormat := by
  have hlen : decide (Config.tcpHlen ≤ s.args.srcLen) = true := decide_eq_true h
  have hrange : s.inRange s.args.srcAddr s.args.srcLen = true := State.inRange_of_le hr
  have hformat : (decide (Config.tcpHlen ≤ tcpOffAt s) && decide (tcpOffAt s ≤ s.args.srcLen)) =
      decide (20 ≤ tcpOffAt s ∧ tcpOffAt s ≤ s.args.a1.toNat) := (Bool.decide_and _ _).symm
  rw [checksOf, decTcpChecks, hlen, hrange, decTcpOff_eq_tcpOffAt h, hformat, firstFailure_cons_true,
    firstFailure_cons_true]
  split
  case isTrue hoff => rw [decide_eq_true hoff, firstFailure_cons_true, firstFailure_nil]
  case isFalse hoff => rw [decide_eq_false hoff, firstFailure_cons_false]

/-- What a parse without error has found: a whole header inside the buffer, and a data offset inside the packet. -/
abbrev TcpPacketParses (s : State) : Prop :=
  20 ≤ s.args.a1.toNat ∧ s.args.a0.toNat + s.args.a1.toNat ≤ s.params.pbufSize ∧ 20 ≤ tcpOffAt s ∧
    tcpOffAt s ≤ s.args.a1.toNat

theorem decTcpChecks_pass_iff (s : State) : firstFailure (checksOf s .decTcp) = none ↔ TcpPacketParses s := by
  by_cases hlen : 20 ≤ s.args.a1.toNat
  · by_cases hr : s.args.a0.toNat + s.args.a1.toNat ≤ s.params.pbufSize
    · rw [decTcpChecks_format hlen hr]
      simp [TcpPacketParses, hlen, hr]
    · rw [decTcpChecks_range hlen (Nat.not_le.1 hr)]
      simp [TcpPacketParses, hr]
  · rw [decTcpChecks_length (Nat.not_le.1 hlen)]
    simp [TcpPacketParses, hlen]

/-! ### The bank of a parse (R224) -/

section
variable {s : State} (h : TcpPacketParses s)
include h

theorem decTcpBank_hdr : (decTcpBank s).hdr = decodeTcpHeader (s.memRead s.args.a0.toNat 20) := by
  obtain ⟨hlen, -, -⟩ := h
  exact decTcpHeader_eq hlen

theorem decTcpBank_optLen_toNat : (decTcpBank s).optLen.toNat = tcpOffAt s - 20 := by
  obtain ⟨hlen, -, -⟩ := h
  have hmax := tcpOffAt_le s
  rw [decTcpBank, decTcpOff_eq_tcpOffAt hlen, BitVec.toNat_ofNat, Config.tcpHlen, Nat.mod_eq_of_lt (by omega)]

theorem decTcpBank_daddr_toNat : (decTcpBank s).daddr.toNat = (s.args.a0.toNat + tcpOffAt s) % 2 ^ 32 := by
  obtain ⟨hlen, -, -⟩ := h
  rw [decTcpBank, decTcpOff_eq_tcpOffAt hlen, BitVec.toNat_ofNat, Args.srcAddr]

theorem decTcpBank_dlen_toNat : (decTcpBank s).dlen.toNat = s.args.a1.toNat - tcpOffAt s := by
  obtain ⟨hlen, -, -⟩ := h
  have hlt := s.args.a1.isLt
  rw [decTcpBank, decTcpOff_eq_tcpOffAt hlen, BitVec.toNat_ofNat, Args.srcLen, Nat.mod_eq_of_lt (by omega)]

theorem decTcpBank_opt :
    (decTcpBank s).opt = optStore (s.memRead (s.args.a0.toNat + 20) (tcpOffAt s - 20)) := by
  obtain ⟨hlen, -, hoff, hoffLen⟩ := h
  rw [← decTcpBytes_options hoff hoffLen, ← decTcpOff_eq_tcpOffAt hlen]
  rfl

theorem decTcpBank_opt_getElem (i : Nat) (hi : i < 40) : (decTcpBank s).opt[i] =
    if i < tcpOffAt s - 20 then s.pbufByte (s.args.a0.toNat + 20 + i) else 0x00#8 := by
  simp only [decTcpBank_opt h]
  rw [optStore_getElem, byteAt_memRead]

/-! ### The packet of a parse is the bytes parsed (R224) -/

theorem decTcpBank_options : (decTcpBank s).options = s.memRead (s.args.a0.toNat + 20) (tcpOffAt s - 20) := by
  have hmax := tcpOffAt_le s
  have htake := optStore_toList_take (bs := s.memRead (s.args.a0.toNat + 20) (tcpOffAt s - 20))
    (by rw [State.memRead_length]; omega)
  rw [State.memRead_length] at htake
  rw [TcpBank.options, decTcpBank_opt h, decTcpBank_optLen_toNat h, htake]

/-- DADDR is the payload's address; the truncation of R115 is seen only where the payload is empty. -/
theorem memRead_decTcpBank_payload (hv : s.params.valid) :
    s.memRead (decTcpBank s).daddr.toNat (decTcpBank s).dlen.toNat =
      s.memRead (s.args.a0.toNat + tcpOffAt s) (s.args.a1.toNat - tcpOffAt s) := by
  rw [decTcpBank_daddr_toNat h, decTcpBank_dlen_toNat h]
  obtain ⟨-, hr, -, hoff⟩ := h
  obtain ⟨-, hsize⟩ := hv
  rcases Nat.eq_or_lt_of_le hoff with hempty | hpayload
  · rw [hempty, Nat.sub_self]
    rfl
  · rw [Nat.mod_eq_of_lt (by omega)]

theorem decTcpBank_length :
    20 + (decTcpBank s).optLen.toNat + (decTcpBank s).dlen.toNat = s.args.a1.toNat := by
  rw [decTcpBank_optLen_toNat h, decTcpBank_dlen_toNat h]
  obtain ⟨-, -, hoff, hoffLen⟩ := h
  omega

theorem tcpBankOk_decTcpBank : TcpBankOk (decTcpBank s) := by
  obtain ⟨hlen, -, hoff, -⟩ := h
  exact tcpBankOk_of_parse (by rwa [decTcpOff_eq_tcpOffAt hlen])

/-- ENC.TCP serialises the bank of a parse, over the same buffer, to the bytes that were parsed. -/
theorem encTcpBytes_of_parse (hv : s.params.valid) {u : State} (htcp : u.tcp = decTcpBank s) (hmem : u.mem = s.mem)
    (hepoch : u.epoch = s.epoch) : encTcpBytes u = s.memRead s.args.a0.toNat s.args.a1.toNat := by
  rw [encTcpBytes, htcp, decTcpBank_hdr h, encodeTcpHeader_decodeTcpHeader (s.memRead_length _ 20),
    decTcpBank_options h, State.memRead_of_mem_eq s u hmem hepoch, memRead_decTcpBank_payload h hv]
  obtain ⟨-, -, hoff, hoffLen⟩ := h
  rw [← State.memRead_append, Nat.add_sub_cancel' hoff, ← State.memRead_append, Nat.add_sub_cancel' hoffLen]

/-- The payload lies in the parsed packet, so only the output range is left to ask of the place it is written to. -/
theorem tcpRangesFit_of_parse {u : State} (htcp : u.tcp = decTcpBank s) (hparams : u.params = s.params)
    (hout : u.args.a0.toNat + s.args.a1.toNat ≤ s.params.pbufSize) : TcpRangesFit u := by
  rw [TcpRangesFit, htcp, hparams, decTcpBank_length h]
  refine ⟨Or.inr ?_, hout⟩
  rw [decTcpBank_daddr_toNat h, decTcpBank_dlen_toNat h]
  have hle := Nat.mod_le (s.args.a0.toNat + tcpOffAt s) (2 ^ 32)
  obtain ⟨-, hr, -, hoff⟩ := h
  omega

/-- ENC.TCP, from a state with the bank of a parse and the buffer that was parsed, writes the bytes parsed; the rest of that
state is free. -/
theorem encTcp_of_parse (hv : s.params.valid) {u : State} (htcp : u.tcp = decTcpBank s) (hmem : u.mem = s.mem)
    (hepoch : u.epoch = s.epoch) (hparams : u.params = s.params)
    (hout : u.args.a0.toNat + s.args.a1.toNat ≤ s.params.pbufSize) :
    ∃ v, exec .encTcp u = .next v ∧ v.status.err = none ∧
      v.memRead u.args.a0.toNat s.args.a1.toNat = s.memRead s.args.a0.toNat s.args.a1.toNat := by
  have hok : TcpBankOk u.tcp := htcp ▸ tcpBankOk_decTcpBank h
  have hread := memRead_after_encTcp hok
  rw [encTcpBytes_of_parse h hv htcp hmem hepoch, htcp, decTcpBank_length h] at hread
  exact ⟨_, exec_succeeds (encTcpChecks_pass hok (tcpRangesFit_of_parse h htcp hparams hout)), rfl, hread⟩

end

/-! ### BLD.TCP: the option and the offset byte (R226, R227) -/

theorem bldTcpBank_of_syn {p : Params} {a : Args} (h : a.tcpFlags = p.tcpFlagSyn) :
    (bldTcpBank p a).hdr.off = 0x60#8 ∧ (bldTcpBank p a).optLen = 4#6 ∧
      (bldTcpBank p a).opt.toList = [0x02#8, 0x04#8, 0x05#8, 0xb4#8] ++ List.replicate 36 0x00#8 := by
  have hopt : bldTcpOptions p a.tcpFlags = mssOption := if_pos h
  rw [bldTcpBank, hopt]
  exact ⟨rfl, rfl, rfl⟩

theorem bldTcpBank_of_not_syn {p : Params} {a : Args} (h : a.tcpFlags ≠ p.tcpFlagSyn) :
    (bldTcpBank p a).hdr.off = 0x50#8 ∧ (bldTcpBank p a).optLen = 0#6 ∧
      (bldTcpBank p a).opt.toList = List.replicate 40 0x00#8 := by
  have hopt : bldTcpOptions p a.tcpFlags = [] := if_neg h
  rw [bldTcpBank, hopt]
  exact ⟨rfl, rfl, rfl⟩

end Sys2Proof.Machine

namespace Sys2Proof.Proofs

open Sys2Proof.Machine Sys2Proof.Claims

/-- Settles O48: the format check and the ranges decide between the three outcomes; in the first the packet's bytes stand at
a0. -/
theorem encTcpWritesThePacket : Obligations.EncTcpWritesThePacket := by
  refine fun s => ⟨decode_true_tableWord .encTcp, fun hok hin hout => ?completes, fun hbad => ?format,
    fun hok hpos hin => ?payloadRange, fun hok hout => ?outputRange⟩
  case completes =>
    have hexec : exec .encTcp s = .next (s.emit s.args.a0.toNat (encTcpBytes s)).succeed :=
      exec_succeeds (encTcpChecks_pass hok ⟨hin, hout⟩)
    have hlen := encTcpBytes_length_of_bankOk hok
    refine ⟨_, hexec, memRead_after_encTcp hok, fun hfits => ?_,
      exec_sameBytesOutside hexec rfl fun _ => hlen, s.succeed_emit_eq _ _⟩
    rw [State.succeed_olen, State.emit_olen, hlen, olenWord_toNat _ hfits]
  case format => exact failsWith_of_firstFailure (encTcpChecks_format hbad)
  case payloadRange =>
    exact failsWith_of_firstFailure (encTcpChecks_outOfRange hok fun ⟨hpayload, _⟩ => by omega)
  case outputRange =>
    exact failsWith_of_firstFailure (encTcpChecks_outOfRange hok fun ⟨_, houtput⟩ => by omega)

/-- Settles O49: the checks decide between the four outcomes; in the first the bank is that of the parse. -/
theorem decTcpParsesThePacket : Obligations.DecTcpParsesThePacket := by
  refine fun s => ⟨decode_true_tableWord .decTcp, fun hlen hr hoff hoffLen => ?parses, fun hlen => ?length,
    fun hlen hr => ?range, fun hlen hr hbad => ?format⟩
  case parses =>
    have hp : TcpPacketParses s := ⟨hlen, hr, hoff, hoffLen⟩
    exact ⟨_, exec_succeeds ((decTcpChecks_pass_iff s).2 hp), decTcpBank_hdr hp, decTcpBank_optLen_toNat hp,
      decTcpBank_opt_getElem hp, decTcpBank_daddr_toNat hp, decTcpBank_dlen_toNat hp, rfl⟩
  case length => exact failsWith_of_firstFailure (decTcpChecks_length hlen)
  case range => exact failsWith_of_firstFailure (decTcpChecks_range hlen hr)
  case format =>
    refine failsWith_of_firstFailure ((decTcpChecks_format hlen hr).trans (if_neg fun ⟨hoff, hoffLen⟩ => ?_))
    omega

/-- Settles O50: BLD.TCP makes no check; the option and the offset byte follow the test of the whole flags byte. -/
theorem bldTcpBuildsThePacketValue : Obligations.BldTcpBuildsThePacketValue :=
  fun s => ⟨decode_true_tableWord .bldTcp, _, exec_succeeds (i := .bldTcp) rfl, rfl, portsSource_toNat s.args.a4,
    portsDest_toNat s.args.a4, rfl, rfl, lowByte_toNat s.args.a5, rfl, rfl, rfl, rfl, rfl, bldTcpBank_of_syn,
    bldTcpBank_of_not_syn⟩

/-- Settles O52: ENC.TCP sees the bank of the parse over the buffer that was parsed. -/
theorem encTcpAfterDecTcpReproducesTheBytes : Obligations.EncTcpAfterDecTcpReproducesTheBytes := by
  intro s t d hv h he hd
  obtain ⟨hc, rfl⟩ := exec_of_err_none h he
  exact encTcp_of_parse ((decTcpChecks_pass_iff s).1 hc) hv rfl rfl rfl rfl hd

end Sys2Proof.Proofs
end

section
/-! PROOFS, family 46_system. NOP (R250). -/

namespace Sys2Proof.Proofs

open Sys2Proof.Machine Sys2Proof.Claims

/-- Settles O27: NOP makes no check, and its effect is the state itself. -/
theorem nopOnlyClearsTheError : Obligations.NopOnlyClearsTheError :=
  fun s => ⟨decode_tableWord (i := .nop) rfl s.params.hasTcp, exec_succeeds (i := .nop) rfl⟩

end Sys2Proof.Proofs
end

section
/-! PROOFS, family 60_exceptions. How a command ends with an error (R260, R266, R270), the word that is no command (R263), and
the halted block (R268). -/

namespace Sys2Proof.Machine

open Sys2Proof.Claims

/-! ### Error entry (R266, R268) -/

/-- Error entry of an error that does not halt writes ERR and STICKY alone. -/
theorem State.raise_eq_errStatus (s : State) {e : CmdError} (he : e ≠ .checksumConsistencyViolation) :
    s.raise e = { s with status := errStatus s e } := by
  rw [State.raise, Status.afterError, CmdError.halts_eq_false he, Bool.or_false]
  rfl

/-- Error entry of ChecksumConsistencyViolation halts, whatever HALT was. -/
theorem State.raise_consistencyViolation (s : State) : s.raise .checksumConsistencyViolation =
    { s with status := { err := some .checksumConsistencyViolation, sticky := true, halt := true } } := by
  have hhalts : CmdError.halts .checksumConsistencyViolation = true := rfl
  rw [State.raise, Status.afterError, hhalts, Bool.or_true]
  rfl

/-! ### The checks: the errors they report, and that they do not read STATUS (R260, R270) -/

/-- The errors a command's checks report are those of its row in R260's table, apart from the assertion's. -/
theorem checksOf_errors (s : State) (i : Instr) :
    ∀ c ∈ checksOf s i, c.2 ∈ raises i ∨ c.2 = .checksumConsistencyViolation := by
  cases i with
  | ckAdd | ckSum => simp [checksOf, raises, sourceChecks]
  | encIp | encIcmp | encUdp | encPsh | bldIp => simp [checksOf, raises]
  | encTcp => simp [checksOf, raises, encTcpChecks]
  | decIp | decIcmp | decUdp | decPsh => simp [checksOf, raises, decChecks]
  | decTcp => simp [checksOf, raises, decTcpChecks]
  | udpPkt => simp [checksOf, raises, pktChecks]
  | nop | ckClr | ckGet | finIp | finIcmp | bldIcmp | bldPsh | bldTcp => exact List.forall_mem_nil _

theorem firstFailure_mem_raises {s : State} {i : Instr} {e : CmdError} (h : firstFailure (checksOf s i) = some e) :
    e ∈ raises i := by
  rcases checksOf_errors s i _ (firstFailure_mem _ _ h) with hmem | heq
  · exact hmem
  · exact absurd (heq ▸ h) (firstFailure_ne_consistencyViolation s i)

@[simp] theorem State.memRead_setStatus (s : State) (st : Status) (a n : Nat) :
    (s.setStatus st).memRead a n = s.memRead a n :=
  s.memRead_of_mem_eq (s.setStatus st) rfl rfl a n

/-- DEC.TCP reads bytes of PBUF for its format check; every other check reads arguments, parameters or the TCP bank. -/
theorem checksOf_setStatus (s : State) (st : Status) (i : Instr) : checksOf (s.setStatus st) i = checksOf s i := by
  cases i with
  | decTcp =>
    have hoff : decTcpOff (s.setStatus st) = decTcpOff s := by
      rw [decTcpOff, decTcpOff, decTcpHeader, decTcpHeader, decTcpBytes, decTcpBytes, State.memRead_setStatus,
        State.setStatus_args]
    rw [checksOf, checksOf, decTcpChecks, decTcpChecks, hoff]
    rfl
  | _ => rfl

/-! ### A command that ends with an error (R266) -/

/-- A command that ends with an error has failed the check that reports it, and has changed STATUS alone. -/
theorem exec_of_err_some {i : Instr} {s t : State} {e : CmdError} (h : exec i s = .next t)
    (he : t.status.err = some e) :
    firstFailure (checksOf s i) = some e ∧ t = { s with status := errStatus s e } := by
  rcases exec_succeeds_or_raises h with ⟨-, rfl⟩ | ⟨e', hne, hc, rfl⟩
  · cases he
  · obtain rfl : e' = e := Option.some.inj he
    exact ⟨hc, s.raise_eq_errStatus hne⟩

/-! ### The write of a command word (R70) -/

/-- The step that writes a word to CMD is the command issue. -/
theorem step_of_issuesNext {s : State} {w : Word} {rest : List Transaction} (h : IssuesNext s w rest) :
    step s = issueCommand w (s.setScript rest) := by
  rw [step_cons h]
  exact transact_command w _

theorem issueCommand_of_halted {s : State} (w : Word) (h : s.status.halt = true) :
    issueCommand w s = .next (s.setCmd w) := if_pos h

theorem issueCommand_of_illegal {s : State} {w : Word} (hh : s.status.halt = false)
    (hd : ∀ i, decode s.params.hasTcp w ≠ .ok i) : issueCommand w s = .next ((s.setCmd w).raise .illegalCommand) := by
  rcases issueCommand_cases w s with ⟨ht, -⟩ | ⟨-, i, hi, -⟩ | ⟨-, -, hraise⟩
  · exact absurd (hh.symm.trans ht) Bool.false_ne_true
  · exact absurd hi (hd i)
  · exact hraise

end Sys2Proof.Machine

namespace Sys2Proof.Proofs

open Sys2Proof.Machine Sys2Proof.Claims

/-- Settles O5: the decoder accepts only the table's words, so this one takes the command issue to error entry. -/
theorem illegalWordRaisesIllegalCommand : Obligations.IllegalWordRaisesIllegalCommand := by
  intro s w rest hs hh hw
  have hd : ∀ i, decode s.params.hasTcp w ≠ .ok i := fun i hi => by
    obtain ⟨htable, hpresent⟩ := (decodeSelectsExactlyTheTableWord _ w i).1 hi
    exact hw i hpresent htable
  rw [step_of_issuesNext hs, issueCommand_of_illegal (s := s.setScript rest) hh hd]
  exact congrArg _ (State.raise_eq_errStatus (e := .illegalCommand) _ nofun)

/-- Settles O6: error entry sets HALT; a command word then goes no further than CMD, while a host access never looks at HALT. -/
theorem haltedBlockIgnoresCommands : Obligations.HaltedBlockIgnoresCommands := by
  refine ⟨State.raise_consistencyViolation, fun s w rest hh hs => ?command, fun s r rest _ hr hs => ?regRead,
    fun s r v rest _ hr hs => ?regWrite, fun s a b rest _ ha hs => ?bufWrite⟩
  case command =>
    rw [step_of_issuesNext hs]
    exact issueCommand_of_halted w hh
  case regRead =>
    obtain ⟨hreg, -⟩ := hostReadGivesTheValueAndChangesNothing
    exact hreg s r rest hr hs
  case regWrite =>
    obtain ⟨-, -, hstatus, -⟩ := RwReg.write_keeps (s.setScript rest) v r
    exact ⟨_, (step_cons hs).trans (regWrite_rw v hr), r.read_write_same _ v, hstatus⟩
  case bufWrite =>
    obtain ⟨t, hstep, hbyte, -, hframe⟩ := hostBufferWriteChangesOneByte s a b rest ha hs
    exact ⟨t, hstep, hbyte, by rw [hframe]⟩

/-- Settles O19: an error is that of a failed check, made before any write; without one the effect leaves STATUS. -/
theorem failedCommandChangesOnlyStatus : Obligations.FailedCommandChangesOnlyStatus := by
  refine fun i s t h => ⟨fun e he _ => ?failed, fun he => ?completed⟩
  case failed =>
    obtain ⟨-, ht⟩ := exec_of_err_some h he
    exact ht
  case completed =>
    obtain ⟨-, rfl⟩ := exec_of_err_none h he
    exact congrArg Status.afterSuccess (effectOf_status i s)

/-- Settles O20: the error is that of a failed check. -/
theorem commandsRaiseOnlyTheirErrors : Obligations.CommandsRaiseOnlyTheirErrors := by
  intro i s t e h he
  obtain ⟨hc, -⟩ := exec_of_err_some h he
  exact firstFailure_mem_raises hc

/-- Settles O21: the checks do not read STATUS, so the same one fails, and writes into STATUS what stands there. -/
theorem failedCommandFailsAgain : Obligations.FailedCommandFailsAgain := by
  intro i s t e h he
  obtain ⟨hc, rfl⟩ := exec_of_err_some h he
  have hagain : firstFailure (checksOf (s.setStatus (errStatus s e)) i) = some e := by rw [checksOf_setStatus, hc]
  exact failsWith_of_firstFailure hagain

end Sys2Proof.Proofs
end
